-- ==== Sys2Proof/Word.lean ====
section
/-! DEFINITION. The one word type of the OSP-7: the byte. Every field of a frame body is made of bytes (12, R183). -/
namespace Sys2Proof

/-- One byte of a frame, a body or the phrase storage (R175, R127). -/
abbrev Byte := BitVec 8

end Sys2Proof
end

