-- ==== Sys2Proof/Config.lean ====
section
/-! DEFINITION. The capacities the spec fixes, and the few values it leaves open that the model names. -/
namespace Sys2Proof.Config

/-- Order frames the receive buffer holds (R176). -/
def rxCapacity : Nat := 4
/-- Held answers the held-answer list holds (R178). -/
def heldCapacity : Nat := 4
/-- Frames the outbox holds (R174). -/
def outboxCapacity : Nat := 32
/-- Blocks of the phrase storage (R127). -/
def storageBlocks : Nat := 8192
/-- Bytes of one storage block (R127). -/
def blockBytes : Nat := 128
/-- What a storage byte that nothing has written reads as. The contents are lost at power-on (R127) and the spec
names no value: DESIGN CHOICE, log 7, unsafe. -/
def blankByte : Byte := 0
/-- The mid-scale sample AUDIO holds outside SOUNDING (R143). -/
def midScale : Byte := 0x80

end Sys2Proof.Config
end

