-- ==== Sys2Proof/Syntax.lean ====
section
/-! DEFINITION. The commands of the OSP-7: one constructor for each row of spec/opcode_table.json.
An order row is the arrival on RXD of that order's complete frame (R175, log 2); every other row is the field event,
the expiry or the supply change that the table names. -/
namespace Sys2Proof

/-- What an order frame carries beside its code and body (R182): whether its kind is "order, hold answer" (0x11)
rather than "order" (0x10), and its tag. -/
structure OrderHead where
  held : Bool
  tag : Byte
deriving DecidableEq, Repr

/-- The two sides of a landing (5.3): one sill sensor on each. -/
inductive Side where
  | up | down
deriving DecidableEq, Repr

/-- The cause inputs of Paternoster Control (R41). -/
inductive CauseInput where
  | cord (landing : Fin 8)
  | guard (landing : Fin 8)
  | driveFault
deriving DecidableEq, Repr

/-- The commands of the OSP-7, in the order of spec/opcode_table.json. -/
inductive Instr where
  /-- STATUS (R180). Order reporting the store as a whole and clearing the notices-lost flag. -/
  | status (h : OrderHead) (body : List Byte)
  /-- COMMENCE (R2). Order that makes four commissioning checks in SETUP and moves the store to TRADING. -/
  | commence (h : OrderHead) (body : List Byte)
  /-- RESTART (R22). Order that starts a warm or cold restart, answered only by N-RESTARTED. -/
  | restart (h : OrderHead) (body : List Byte)
  /-- WAKE (R10). Order adding HOST_WAKE to the wake latch in CLOSING or NIGHT. -/
  | wake (h : OrderHead) (body : List Byte)
  /-- CLEAR_WAKE (R14). Order emptying the wake latch and returning the causes removed. -/
  | clearWake (h : OrderHead) (body : List Byte)
  /-- FORCE_NIGHT (R6). Order putting the store into NIGHT without a closing run, or cutting a run short. -/
  | forceNight (h : OrderHead) (body : List Byte)
  /-- PERMITS_SET (R17). Order loading the bell, announcement and grille reserve permits. -/
  | permitsSet (h : OrderHead) (body : List Byte)
  /-- CHAIN_SET (R25). Order loading the six chain settings, with lists emptied or re-derived as they change. -/
  | chainSet (h : OrderHead) (body : List Byte)
  /-- LANDING_SET (R26). Order replacing one landing record and emptying the clear list. -/
  | landingSet (h : OrderHead) (body : List Byte)
  /-- LANDING_READ (R27). Order reporting one landing's present flag, surveyed flag and sill lists. -/
  | landingRead (h : OrderHead) (body : List Byte)
  /-- CLEAR_DERIVE (R30). Order deriving the clear list afresh from the landing table. -/
  | clearDerive (h : OrderHead) (body : List Byte)
  /-- CLEAR_READ (R27). Order reporting chain settings, position, settled flag, clear list and survey phase. -/
  | clearRead (h : OrderHead) (body : List Byte)
  /-- SURVEY (R34). Order starting a survey of the sill positions over one loop of the chain. -/
  | survey (h : OrderHead) (body : List Byte)
  /-- PN_START (R43). Order asking for service running of the paternoster. -/
  | pnStart (h : OrderHead) (body : List Byte)
  /-- PN_STOP (R46). Order asking for the chain to be stopped at a clear-list entry. -/
  | pnStop (h : OrderHead) (body : List Byte)
  /-- PN_SWEEP (R50). Order asking for a sweep loop ending in NIGHT_LOCK. -/
  | pnSweep (h : OrderHead) (body : List Byte)
  /-- PN_NIGHT_LOCK (R52). Order locking a halted chain by hand. -/
  | pnNightLock (h : OrderHead) (body : List Byte)
  /-- PN_HALT (R54). Order taking ESTOP with cause HOST at once. -/
  | pnHalt (h : OrderHead) (body : List Byte)
  /-- PN_RESET (R55). Order leaving ESTOP when no cause input is active. -/
  | pnReset (h : OrderHead) (body : List Byte)
  /-- PN_UNLOCK (R56). Key-protected order leaving LOCKED_OUT and clearing the start-fault count. -/
  | pnUnlock (h : OrderHead) (body : List Byte)
  /-- PN_READ (R64). Order reporting the state of Paternoster Control. -/
  | pnRead (h : OrderHead) (body : List Byte)
  /-- SHUTTER_SET (R67). Order defining, redefining or removing one shutter record and deriving its state. -/
  | shutterSet (h : OrderHead) (body : List Byte)
  /-- SHUTTER_READ (R68). Order reporting one shutter's record, state, faults, proof and lines. -/
  | shutterRead (h : OrderHead) (body : List Byte)
  /-- SHUTTER_CLOSE (R81). Order releasing a fire shutter, retrying an obstructed one, or driving a grille down. -/
  | shutterClose (h : OrderHead) (body : List Byte)
  /-- SHUTTER_RAISE (R82). Order raising a fire shutter or a grille. -/
  | shutterRaise (h : OrderHead) (body : List Byte)
  /-- SHUTTER_STOP (R76). Order stopping a moving grille where it stands in HALTED_PART. -/
  | shutterStop (h : OrderHead) (body : List Byte)
  /-- SHUTTER_CLEAR (R80). Order removing named fault kinds from a shutter's fault set. -/
  | shutterClear (h : OrderHead) (body : List Byte)
  /-- ZONE_SET (R95). Order loading a zone's bell-line set. -/
  | zoneSet (h : OrderHead) (body : List Byte)
  /-- ZONE_READ (R99). Order reporting a zone, the fire condition, both fire timers and the fire settings. -/
  | zoneRead (h : OrderHead) (body : List Byte)
  /-- ZONE_DECLARE (R92). Order declaring a fire in a zone. -/
  | zoneDeclare (h : OrderHead) (body : List Byte)
  /-- ZONE_RESET (R93). Order ending a zone's fire and returning it to QUIET. -/
  | zoneReset (h : OrderHead) (body : List Byte)
  /-- ZONE_DISABLE (R94). Key-protected order taking a QUIET zone out of service. -/
  | zoneDisable (h : OrderHead) (body : List Byte)
  /-- ZONE_ENABLE (R94). Key-protected order putting a zone back in service and reading its input. -/
  | zoneEnable (h : OrderHead) (body : List Byte)
  /-- FIRE_SET (R97). Order loading the five fire settings. -/
  | fireSet (h : OrderHead) (body : List Byte)
  /-- BELL_SET (R108). Order loading the present lines, repeat gap and answer window. -/
  | bellSet (h : OrderHead) (body : List Byte)
  /-- CALL_POST (R111). Order posting an ordinary bell call, admitted, merged or refused. -/
  | callPost (h : OrderHead) (body : List Byte)
  /-- CALL_CANCEL (R119). Order ending a queued or held call as CANCELLED. -/
  | callCancel (h : OrderHead) (body : List Byte)
  /-- CALL_READ (R125). Order reporting the Bell Exchange's settings, ringers, standing calls and calls. -/
  | callRead (h : OrderHead) (body : List Byte)
  /-- PHRASE_DECLARE (R131). Order declaring a phrase slot's length and check value and invalidating moved slots. -/
  | phraseDeclare (h : OrderHead) (body : List Byte)
  /-- PHRASE_LOAD (R132). Order writing one 128-byte block of a phrase. -/
  | phraseLoad (h : OrderHead) (body : List Byte)
  /-- PHRASE_READ (R137). Order reporting the phrase directory or one slot record. -/
  | phraseRead (h : OrderHead) (body : List Byte)
  /-- SCRIPT_SET (R139). Order loading one script slot. -/
  | scriptSet (h : OrderHead) (body : List Byte)
  /-- SCRIPT_READ (R139). Order reporting one script slot's record. -/
  | scriptRead (h : OrderHead) (body : List Byte)
  /-- ANNOUNCE (R141). Order posting an announcement to the queue. -/
  | announce (h : OrderHead) (body : List Byte)
  /-- ANNOUNCE_CANCEL (R145). Order cancelling a waiting announcement or cutting the playing one. -/
  | announceCancel (h : OrderHead) (body : List Byte)
  /-- ANNOUNCE_READ (R150). Order reporting the Announcement Player and its queue. -/
  | announceRead (h : OrderHead) (body : List Byte)
  /-- TIME_SET (R154). Order writing the calendar and clearing TIME_UNSET. -/
  | timeSet (h : OrderHead) (body : List Byte)
  /-- TIME_READ (R154). Order reporting the calendar, its flags, reference and trim. -/
  | timeRead (h : OrderHead) (body : List Byte)
  /-- TRIM_SET (R156). Order loading the calendar trim. -/
  | trimSet (h : OrderHead) (body : List Byte)
  /-- TIMEBASE_CLEAR (R157). Order clearing the TIMEBASE_FAULT flag when running on the crystal. -/
  | timebaseClear (h : OrderHead) (body : List Byte)
  /-- WEEK_SET (R158). Order loading one weekday's hours. -/
  | weekSet (h : OrderHead) (body : List Byte)
  /-- EXCEPTION_SET (R159). Order loading one dated exception record. -/
  | exceptionSet (h : OrderHead) (body : List Byte)
  /-- EXCEPTION_REMOVE (R159). Order removing the exception record of a date. -/
  | exceptionRemove (h : OrderHead) (body : List Byte)
  /-- HOURS_READ (R160). Order reporting weekly hours, exceptions and today's hours. -/
  | hoursRead (h : OrderHead) (body : List Byte)
  /-- STAMP_READ (R162). Order reporting all five stamp slots. -/
  | stampRead (h : OrderHead) (body : List Byte)
  /-- STAMP_CLEAR (R162). Order emptying one stamp slot and returning its former content. -/
  | stampClear (h : OrderHead) (body : List Byte)
  /-- STAMP_MODE (R162). Order setting one stamp slot's mode to FIRST or LAST. -/
  | stampMode (h : OrderHead) (body : List Byte)
  /-- PROGRAMME_SET (R164). Order loading the whole closing programme outside a run. -/
  | programmeSet (h : OrderHead) (body : List Byte)
  /-- PROGRAMME_READ (R164). Order reporting the programme steps and the start instant. -/
  | programmeRead (h : OrderHead) (body : List Byte)
  /-- CLOSING_BEGIN (R166). Order starting a closing run on the host's command. -/
  | closingBegin (h : OrderHead) (body : List Byte)
  /-- CLOSING_CANCEL (R173). Order ending a closing run and returning the store to TRADING. -/
  | closingCancel (h : OrderHead) (body : List Byte)
  /-- RUN_READ (R173). Order reporting the run, the previous run and the start instant. -/
  | runRead (h : OrderHead) (body : List Byte)
  /-- UNKNOWN_ORDER (R177). An order with a code that names no order, refused with UNKNOWN. -/
  | unknownOrder (h : OrderHead) (code : Byte) (body : List Byte)
  /-- FRAME_RECEIVED (R175). A whole frame arrives on RXD and is checked, kept in the receive buffer or discarded. -/
  | frameReceived (bytes : List Byte)
  /-- RECEIVE_GAP_TIMEOUT (R175). More than 20 ms between bytes discards the frame in reception. -/
  | receiveGapTimeout
  /-- OUTBOX_FRAME_SENT (R179). The last byte of an outbox frame is sent, and the frame leaves the outbox. -/
  | outboxFrameSent
  /-- POWER_ON (R23). Supplies return after both were absent, and every block takes its power-on values. -/
  | powerOn
  /-- RESET_N (R23). RESET_N becoming active makes a warm restart. -/
  | resetN
  /-- MAINS_LOSS (R15). MAINS_OK goes inactive and the power source becomes RESERVE. -/
  | mainsLoss
  /-- MAINS_RETURN (R15). MAINS_OK becomes active and the power source becomes MAINS. -/
  | mainsReturn
  /-- BATT_LOW_SET (R16). BATT_LOW becomes active and the battery-low flag is set. -/
  | battLowSet
  /-- BATT_LOW_CLEAR (R16). BATT_LOW goes inactive and the battery-low flag clears. -/
  | battLowClear
  /-- STAFF_KEY (R12). STAFF_KEY becoming active makes a stamp claim and latches a wake cause in CLOSING or NIGHT. -/
  | staffKey
  /-- COMMISSION_KEY_CHANGE (R21). The COMMISSION key changes state; going inactive abandons a survey. -/
  | commissionKeyChange (active : Bool)
  /-- ENCODER_STEP (R28). An encoder edge advances the chain position and restarts the settle wait. -/
  | encoderStep
  /-- INDEX_EDGE (R29). An index edge sets the position to 0 after the index check. -/
  | indexEdge
  /-- SILL_EDGE (R30). A sill line becoming active is checked against its list or recorded in a survey. -/
  | sillEdge (landing : Fin 8) (side : Side)
  /-- SETTLE_WAIT_EXPIRY (R28). 500 ms pass with no encoder step and the chain becomes settled. -/
  | settleWaitExpiry
  /-- CORD_ACTIVE (R53). A cord of a present landing becomes active and causes ESTOP. -/
  | cordActive (landing : Fin 8)
  /-- GUARD_ACTIVE (R53). A toe guard of a present landing becomes active and causes ESTOP. -/
  | guardActive (landing : Fin 8)
  /-- DRIVE_FAULT_ACTIVE (R53). DRV_FAULT becomes active and causes ESTOP. -/
  | driveFaultActive
  /-- DRV_READY_ACTIVE (R60). DRV_READY becomes active and a HELD paternoster re-evaluates its fire creep. -/
  | drvReadyActive
  /-- START_WINDOW_EXPIRY (R44). The 3 s start window runs out with no motion and the start fails. -/
  | startWindowExpiry
  /-- CREEP_TIMER_EXPIRY (R47). The creep timer runs out in CREEPING and ESTOP follows with CREEP_TIMEOUT. -/
  | creepTimerExpiry
  /-- SURVEY_TIMER_EXPIRY (R37). The survey timer runs out and the survey is abandoned with a CREEP_TIMEOUT claim. -/
  | surveyTimerExpiry
  /-- OPEN_LIM_ACTIVE (R74). A shutter's OPEN_LIM becomes active, ending a raise. -/
  | openLimActive (station : Fin 16)
  /-- OPEN_LIM_INACTIVE (R78). A shutter's OPEN_LIM goes inactive, starting a fall or marking a lost limit. -/
  | openLimInactive (station : Fin 16)
  /-- CLOSED_LIM_ACTIVE (R73). A shutter's CLOSED_LIM becomes active, ending a descent. -/
  | closedLimActive (station : Fin 16)
  /-- CLOSED_LIM_INACTIVE (R76). A shutter's CLOSED_LIM goes inactive; a CLOSED grille becomes HALTED_PART. -/
  | closedLimInactive (station : Fin 16)
  /-- EDGE_ACTIVE (R72). A shutter's EDGE becomes active, obstructing a descent. -/
  | edgeActive (station : Fin 16)
  /-- EDGE_INACTIVE (R72). A shutter's EDGE goes inactive and the edge-clear timer starts. -/
  | edgeInactive (station : Fin 16)
  /-- DESCENT_TIMER_EXPIRY (R73). A shutter's descent timer runs out and DESCENT_SLOW is added. -/
  | descentTimerExpiry (station : Fin 16)
  /-- MAGNET_CHECK_EXPIRY (R71). The 2 s magnet check runs out, adding MAGNET_STUCK if OPEN_LIM is still active. -/
  | magnetCheckExpiry (station : Fin 16)
  /-- EDGE_CLEAR_TIMER_EXPIRY (R72). The 5 s edge-clear timer runs out and an obstructed fire shutter retries. -/
  | edgeClearTimerExpiry (station : Fin 16)
  /-- RAISE_TIMER_EXPIRY (R74). A shutter's raise timer runs out and RAISE_SLOW is added. -/
  | raiseTimerExpiry (station : Fin 16)
  /-- ZONE_IN_ACTIVE (R90). An enabled zone's input becomes active and the zone alarms. -/
  | zoneInActive (zone : Fin 6)
  /-- ZONE_IN_INACTIVE (R90). An enabled zone's input goes inactive and an undeclared ALARMED zone becomes STANDING. -/
  | zoneInInactive (zone : Fin 6)
  /-- CLEARANCE_DEADLINE_EXPIRY (R101). The clearance deadline expires, stopping the chain and forcing waiting shutters down. -/
  | clearanceDeadlineExpiry
  /-- RESERVE_HOLD_EXPIRY (R103). The reserve-hold timer runs out and every open fire shutter is released. -/
  | reserveHoldExpiry
  /-- ROUND_COMPLETE (R116). A ringer's code completes and repeats remaining fall by one. -/
  | roundComplete (ringer : Fin 3)
  /-- ANSWER_GUARD_CLEAR (R117). The first stroke's on time ends and the call's answer guard clears. -/
  | answerGuardClear (ringer : Fin 3)
  /-- REPEAT_GAP_END (R116). A ringer's repeat gap ends and it strikes the next round. -/
  | repeatGapEnd (ringer : Fin 3)
  /-- ANSWER_WINDOW_EXPIRY (R118). A call's answer window runs out and it ends as UNANSWERED. -/
  | answerWindowExpiry (ringer : Fin 3)
  /-- ANSWER_INPUT (R117). An ANSWER input becomes active on an owned line of an answer-wanted call. -/
  | answerInput (line : Fin 10)
  /-- PREPARING_END (R142). The 250 ms PREPARING period ends and the player begins the script. -/
  | preparingEnd
  /-- BLOCK_BOUNDARY (R143). A 16 ms phrase block ends and the block index advances. -/
  | blockBoundary
  /-- GAP_END (R143). An item's gap ends and the player goes on to the next repeat or item. -/
  | gapEnd
  /-- FIRE_PAUSE_END (R147). The fire pause ends and the next round of fire playback begins. -/
  | firePauseEnd
  /-- CALENDAR_TICK (R153). The calendar advances by one hundredth of a second. -/
  | calendarTick
  /-- MIDNIGHT_ROLLOVER (R153). The calendar passes midnight, purging old exceptions and recomputing today's hours. -/
  | midnightRollover
  /-- TRIM_PERIOD_END (R156). A 64-second trim period ends and the trim counts are removed or inserted. -/
  | trimPeriodEnd
  /-- CRYSTAL_STOP (R157). The crystal stops and the calendar moves to the internal reference with TIMEBASE_FAULT set. -/
  | crystalStop
  /-- CRYSTAL_RESUME (R157). The crystal runs again and the reference returns to CRYSTAL. -/
  | crystalResume
  /-- OPENING_TIME_EVENT (R11). Today's opening time is reached and OPENING_TIME is latched in CLOSING or NIGHT. -/
  | openingTimeEvent
  /-- START_INSTANT_REACHED (R165). The start instant is reached and a closing run starts in TRADING. -/
  | startInstantReached
  /-- STEP_DUE_INSTANT (R167). A PENDING step's due instant is reached and the due steps are taken. -/
  | stepDueInstant
  /-- CAUSE_INPUT_INACTIVE (R55). A CORD, GUARD or DRV_FAULT line goes inactive, so that it no longer counts as an active cause input. -/
  | causeInputInactive (input : CauseInput)
  /-- DRV_READY_INACTIVE (R60). DRV_READY goes inactive, after which starts, sweeps, surveys and fire creeps are withheld. -/
  | drvReadyInactive
  /-- ANSWER_INPUT_INACTIVE (R117). An ANSWER button is released, so that a later press counts as becoming active again. -/
  | answerInputInactive (line : Fin 10)
  /-- STAFF_KEY_INACTIVE (R12). STAFF_KEY goes inactive, arming the key for a second turn. -/
  | staffKeyInactive
  /-- RESET_N_INACTIVE (R23). RESET_N goes inactive, arming it for a second warm restart. -/
  | resetNInactive
  /-- STROKE_TIME_END (R107). The on time or the off time of a bell stroke ends, and the ringer's lines change level. -/
  | strokeTimeEnd (ringer : Fin 3)
  /-- LENGTH_OUT_OF_RANGE (R175). A length byte below 3 or above 250 discards the frame at that byte, and the receiver returns to hunting. -/
  | lengthOutOfRange (len : Byte)
  /-- MISSING_STOP_BIT (R175). A byte received without its stop bit discards the frame in reception, and hunting resumes with the next byte. -/
  | missingStopBit
deriving DecidableEq, Repr

end Sys2Proof
end

