-- ==== Sys2Proof/Machine/State.lean ====
section
/-! DEFINITION. The state of the OSP-7 as plain data, block by block, and its value after power-on.
`Store` is what the eight acting blocks hold, `Env` what they only read during an event (input lines, the Time Base,
the Phrase Store), and `State` adds the Link Unit and the queue of waiting commands. `Ev` is one event under way. -/
namespace Sys2Proof.Machine

/-! ## Names of 5.1, in the order of their codes (R183) -/

/-- Store modes (R1). -/
inductive StoreMode where
  | setup | trading | closing | night
deriving DecidableEq, Repr

/-- Power sources (R1). -/
inductive Source where
  | mains | reserve
deriving DecidableEq, Repr

/-- Outcomes of an order (5.9). -/
inductive Outcome where
  | done | started | merged | refused | ended
deriving DecidableEq, Repr

/-- Reasons of an answer (12.2). -/
inductive Reason where
  | none | form | range | unknown | state | mode | locked | full | fire | moving | notClear | power | heldFull
  | notReady | busy | timeUnset | unanswered | cut | dropped | abandoned | fault | cancelled | sillCount
deriving DecidableEq, Repr

/-- Kinds of restart (5.8). -/
inductive RestartKind where
  | powerOn | cold | warm
deriving DecidableEq, Repr

/-- Causes of a change of store mode (R8). -/
inductive ModeCause where
  | commence | runStart | nightStep | forceNight | cancel | wake | restart
deriving DecidableEq, Repr

/-- Paternoster states (R39). -/
inductive PnState where
  | halted | starting | running | sweeping | creeping | settling | held | estop | lockedOut | nightLock | survey
  | powerStop
deriving DecidableEq, Repr

/-- Drive demands (R39). -/
inductive Demand where
  | off | creep | service
deriving DecidableEq, Repr

/-- Stop purposes (R39). -/
inductive Purpose where
  | normal | sweep | fire
deriving DecidableEq, Repr

/-- Emergency-stop causes, each with its detail (R39, R53): the landing, the shutter, or none where the detail is 0. -/
inductive Cause where
  | cord (landing : Fin 8)
  | guard (landing : Fin 8)
  | driveFault
  | chainSlip
  | sillMismatch (landing : Fin 8)
  | creepTimeout
  | stopMissed
  | clearance
  | shutterMoved (station : Fin 16)
  | host
deriving DecidableEq, Repr

/-- Causes of an abandoned survey (R37). -/
inductive AbandonCause where
  | fire | estop | power | host | key | timeout
deriving DecidableEq, Repr

/-- Shutter kinds (R66). -/
inductive ShutterKind where
  | fire | grille
deriving DecidableEq, Repr

/-- Shutter states (R66). -/
inductive ShutterState where
  | opened | releaseWait | descending | obstructed | closed | raising | haltedPart
deriving DecidableEq, Repr

/-- Causes of a change of a shutter's state (R68). -/
inductive ShutterCause where
  | order | programme | fire | deadline | reserve | limit | edge | timeout | supply | define | restart
deriving DecidableEq, Repr

/-- Causes of a forced release (R85). -/
inductive ForcedCause where
  | deadline | late | reserveHold | batteryLow
deriving DecidableEq, Repr

/-- Zone states (R89). -/
inductive ZoneState where
  | quiet | alarmed | standing
deriving DecidableEq, Repr

/-- Causes of a zone's change (R91). -/
inductive ZoneCause where
  | input | declare | reset | enable | disable | restart
deriving DecidableEq, Repr

/-- Call classes in rank order (R110). -/
inductive CallClass where
  | urgent | watch | closing | routine
deriving DecidableEq, Repr

/-- Announcement classes in rank order (R140). -/
inductive AnnClass where
  | closing | routine
deriving DecidableEq, Repr

/-- Origins of calls and announcements (R109, R140). -/
inductive Origin where
  | host | programme
deriving DecidableEq, Repr

/-- Ends of an ordinary call (R120). -/
inductive CallOutcome where
  | rung | answered | unanswered | cancelled | unrung
deriving DecidableEq, Repr

/-- What became of an escalation (R118). -/
inductive Escalation where
  | none
  | escalated (number : Nat)
  | merged (number : Nat)
deriving DecidableEq, Repr

/-- Ends of an announcement (R144). -/
inductive AnnOutcome where
  | played | cancelled | cut | dropped
deriving DecidableEq, Repr

/-- Causes of an announcement's end (R144). -/
inductive AnnCause where
  | none | cancel | fire | night | power
deriving DecidableEq, Repr

/-- Player states (R138). -/
inductive PlayerState where
  | idle | preparing | sounding | gap
deriving DecidableEq, Repr

/-- Phrase slot states (R129). -/
inductive SlotState where
  | empty | declared | loading | ready | faulty
deriving DecidableEq, Repr

/-- References of the calendar (R152). -/
inductive Reference where
  | crystal | internal
deriving DecidableEq, Repr

/-- Stamp modes (R161). -/
inductive StampMode where
  | first | last
deriving DecidableEq, Repr

/-- Step outcomes (R163). -/
inductive StepOutcome where
  | pending | done | dropped | late | deferred | failed | waiting
deriving DecidableEq, Repr

/-- Start causes of a run (R163). -/
inductive StartCause where
  | auto | order
deriving DecidableEq, Repr

/-- End causes of a run (R172, R173). -/
inductive EndCause where
  | nightStep | cancel | forceNight
deriving DecidableEq, Repr

/-- Line rates of the order link in baud (R174). -/
inductive LineRate where
  | b9600 | b19200 | b57600 | b115200
deriving DecidableEq, Repr

/-! ## Shared records -/

/-- A date (5.5). -/
structure Date where
  year : Nat
  month : Nat
  day : Nat
deriving DecidableEq, Repr

/-- A calendar time (5.5). -/
structure CalTime where
  date : Date
  hour : Nat
  minute : Nat
  second : Nat
  hundredths : Nat
deriving DecidableEq, Repr

/-- The hours of one day: CLOSED, or an opening and a closing time in minutes from midnight (R158). -/
inductive Hours where
  | closed
  | times (opening closing : Nat)
deriving DecidableEq, Repr

/-- A timer: stopped, or running to an instant of the part's own time, in hundredths of a second (log 8). -/
abbrev Timer := Option Nat

/-- A bell code: one to four groups of one to nine strokes (R107). -/
abbrev BellCode := List Nat

/-! ## Mode and Supply Unit (R1) -/

structure Msu where
  mode : StoreMode
  /-- bit 0 HOST_WAKE, bit 1 OPENING_TIME, bit 2 STAFF_KEY -/
  wake : BitVec 3
  source : Source
  batteryLow : Bool
  bellPermit : Bool
  announcePermit : Bool
  grillePermit : Bool
  key : Bool
deriving DecidableEq, Repr

/-! ## Chain Tracker (R24) -/

structure ChainSettings where
  loopLength : Nat
  cars : Nat
  levelTol : Nat
  indexTol : Nat
  stopLead : Nat
  /-- in seconds -/
  creepTimeout : Nat
deriving DecidableEq, Repr

structure Landing where
  present : Bool
  up : List Nat
  down : List Nat
deriving DecidableEq, Repr

/-- One clear-list entry: a position and the landings it serves (R31). -/
structure ClearEntry where
  pos : Nat
  set : BitVec 8
deriving DecidableEq, Repr

/-- The working list and edge count of one landing side during a survey (R34, R35). -/
structure SideCount where
  count : Nat
  list : List Nat
deriving DecidableEq, Repr

structure Survey where
  /-- RECORDING, else INDEX_WAIT -/
  recording : Bool
  up : Vector SideCount 8
  down : Vector SideCount 8
deriving DecidableEq, Repr

structure Cht where
  settings : ChainSettings
  landings : Vector Landing 8
  clearList : List ClearEntry
  /-- none: unknown -/
  position : Option Nat
  settled : Bool
  settleWait : Timer
  survey : Option Survey
  surveyTimer : Timer
  /-- the clear-landings set as last published (R33) -/
  clear : BitVec 8
deriving DecidableEq, Repr

/-! ## Paternoster Control (R39) -/

/-- The emergency-stop cause set: each cause at most once, keyed by cause and detail (R39). -/
structure CauseSet where
  cord : BitVec 8
  guard : BitVec 8
  sillMismatch : BitVec 8
  shutterMoved : BitVec 16
  driveFault : Bool
  chainSlip : Bool
  creepTimeout : Bool
  stopMissed : Bool
  clearance : Bool
  host : Bool
deriving DecidableEq, Repr

structure Pnc where
  state : PnState
  purpose : Purpose
  target : Option Nat
  missCount : Nat
  startFaults : Nat
  causes : CauseSet
  sweepCount : Nat
  creepPending : Bool
  startTimer : Timer
  creepTimer : Timer
  /-- the sweep under way was claimed by the Closing Programme Unit (R51, log 26) -/
  sweepClaimed : Bool
deriving DecidableEq, Repr

/-! ## Shutter Control (R66) -/

/-- A descent timer: running since an instant with the time run before it, or paused with the time run (R66). -/
inductive Descent where
  | stopped
  | running (start ran : Nat)
  | paused (ran : Nat)
deriving DecidableEq, Repr

/-- The proof record: when a shutter last fell cleanly and for how long, in 10 ms units (R73). -/
structure Proof where
  time : CalTime
  ran : Nat
deriving DecidableEq, Repr

structure Shutter where
  kind : ShutterKind
  zone : Option (Fin 6)
  landing : Option (Fin 8)
  night : Bool
  openOnFire : Bool
  /-- in seconds -/
  descentTimeout : Nat
  /-- in seconds -/
  raiseTimeout : Nat
  state : ShutterState
  /-- the fault kinds, at the bits R183 gives -/
  faults : BitVec 8
  obstr : Nat
  proof : Option Proof
  proving : Bool
  retryWait : Bool
  descent : Descent
  magnetCheck : Timer
  edgeClear : Timer
  raiseTimer : Timer
  /-- a raise of a grille is driving up under fire, else by order (R69) -/
  upFire : Bool
  /-- a fire raise of a grille waits for the demand OFF (R86, log 21) -/
  fireWait : Bool
  /-- an open-on-fire grille was left CLOSED or HALTED_PART under fire for want of supply (R86, log 21) -/
  supplyWait : Bool
deriving DecidableEq, Repr

structure Shc where
  stations : Vector (Option Shutter) 16
deriving DecidableEq, Repr

/-! ## Fire Zone Unit (R89) -/

structure Zone where
  enabled : Bool
  lines : BitVec 10
  state : ZoneState
  declared : Bool
deriving DecidableEq, Repr

/-- The clearance deadline (R100), with its expiry in own time. -/
inductive Deadline where
  | cleared
  | running (expiry : Nat)
  | spent
deriving DecidableEq, Repr

/-- The reserve-hold timer (R102), with its expiry in own time. -/
inductive Hold where
  | stopped
  | running (expiry : Nat)
  | expired
deriving DecidableEq, Repr

structure Fzu where
  zones : Vector Zone 6
  /-- the fire condition is ACTIVE (R96) -/
  fire : Bool
  deadline : Deadline
  hold : Hold
  /-- in seconds -/
  clearanceWait : Nat
  /-- in minutes -/
  reserveHold : Nat
  fireScript : Option (Fin 16)
  alertCode : BellCode
  /-- in seconds -/
  fireRepeat : Nat
deriving DecidableEq, Repr

/-! ## Bell Exchange (R106) -/

/-- An ordinary call: the fields of R109, the rounds sounded since admission (R120), and its place in the order of
admission (R110, R121; the model's own counter, log 26). -/
structure Call where
  number : Nat
  code : BellCode
  lines : BitVec 10
  cls : CallClass
  repeats : Nat
  remaining : Nat
  wantAnswer : Bool
  escalate : Bool
  origin : Origin
  heldRef : Bool
  guard : Bool
  rounds : Nat
  seq : Nat
deriving DecidableEq, Repr

/-- A call as a post gives it, before its admission. -/
structure Post where
  code : BellCode
  lines : BitVec 10
  cls : CallClass
  repeats : Nat
  wantAnswer : Bool
  escalate : Bool
  origin : Origin
  heldRef : Bool
deriving DecidableEq, Repr

/-- What a ringer holds (R106). -/
inductive Ringing where
  | ordinary (call : Call)
  | evac
  | alert
deriving DecidableEq, Repr

/-- Ringer states (R114). -/
inductive RingerState where
  | idle | striking | pausing | awaiting
deriving DecidableEq, Repr

/-- Where a ringer stands in its code (R107): the code of the round, the group, the stroke within the group, and
whether the stroke is in its on time. -/
structure Stroke where
  code : BellCode
  group : Nat
  stroke : Nat
  on : Bool
deriving DecidableEq, Repr

structure Ringer where
  state : RingerState
  held : Option Ringing
  lines : BitVec 10
  stroke : Stroke
  /-- the end of the present pause or answer window -/
  timer : Timer
deriving DecidableEq, Repr

structure Blx where
  present : BitVec 10
  /-- in seconds -/
  gap : Nat
  /-- in seconds -/
  window : Nat
  queue : List Call
  ringers : Vector Ringer 3
  nextNumber : Nat
  nextSeq : Nat
deriving DecidableEq, Repr

/-! ## Phrase Store (R127) -/

structure Slot where
  length : Nat
  check : BitVec 16
  /-- the indices loaded, ascending, each once -/
  loaded : List Nat
  computed : Option (BitVec 16)
deriving DecidableEq, Repr

structure Phs where
  storage : List Host.Cell
  slots : Vector Slot 64
deriving DecidableEq, Repr

/-! ## Announcement Player (R138) -/

/-- One item of a script: a phrase slot, its repeats, and the gap after it in 10 ms units (R139). -/
structure Item where
  slot : Nat
  repeats : Nat
  gap : Nat
deriving DecidableEq, Repr

structure Script where
  items : List Item
  chime : Bool
  speakers : BitVec 8
deriving DecidableEq, Repr

structure Announcement where
  number : Nat
  script : Fin 16
  speakers : BitVec 8
  cls : AnnClass
  origin : Origin
  heldRef : Bool
deriving DecidableEq, Repr

structure Cursor where
  /-- the stage is item, else chime -/
  onItem : Bool
  item : Nat
  rep : Nat
  block : Nat
deriving DecidableEq, Repr

/-- The skip record: the item indices skipped, and whether the chime was omitted (R138). -/
structure Skip where
  items : BitVec 12
  chime : Bool
deriving DecidableEq, Repr

structure Anp where
  scripts : Vector Script 16
  queue : List Announcement
  playing : Option Announcement
  state : PlayerState
  /-- the fire playback flag -/
  fire : Bool
  cursor : Cursor
  pendingCut : Bool
  skip : Skip
  next : Nat
  /-- the script held for what plays (R139, R142, R147) -/
  script : Script
  /-- the sounding slot (R135) -/
  sounding : Option (Fin 64)
  /-- the end of the present PREPARING or GAP -/
  timer : Timer
  /-- the present GAP is the fire pause (R147) -/
  firePause : Bool
deriving DecidableEq, Repr

/-! ## Time Base (R152) -/

structure Exception where
  date : Date
  hours : Hours
deriving DecidableEq, Repr

structure Tmb where
  cal : CalTime
  timeUnset : Bool
  trim : Int
  ref : Reference
  fault : Bool
  /-- Monday to Sunday -/
  weekly : Vector Hours 7
  exceptions : List Exception
  today : Hours
  /-- counts the trim has inserted (or, negative, removed) since the last hundredth (R156, log 13) -/
  divider : Int
  /-- the part's own time in hundredths of a second (R98, log 8) -/
  ownTime : Nat
deriving DecidableEq, Repr

/-- One stamp slot (R161). The time comes with the mark that it was taken while TIME_UNSET was set. -/
structure Stamp where
  mode : StampMode
  count : Nat
  time : Option (CalTime × Bool)
  detail : Nat
deriving DecidableEq, Repr

/-! ## Closing Programme Unit (R163) -/

/-- Actions of a step, with their parameters (R164). -/
inductive Action where
  | announce (script : Fin 16) (speakers : BitVec 8)
  | bell (code : BellCode) (lines : BitVec 10) (repeats : Nat)
  | sweep
  | grilles (stations : BitVec 16)
  | night
deriving DecidableEq, Repr

structure Step where
  /-- in minutes -/
  offset : Int
  action : Action
deriving DecidableEq, Repr

/-- What a run record keeps of one step (R163); no grille results before the claims of a GRILLES step are made (log 60). -/
structure StepRecord where
  outcome : StepOutcome
  reason : Reason
  grilles : List (Fin 16 × Reason)
deriving DecidableEq, Repr

/-- A run record. The closing time used is counted in hundredths from 2000-01-01 (log 31). -/
structure Run where
  startCause : StartCause
  closing : Int
  cursor : Nat
  steps : List StepRecord
deriving DecidableEq, Repr

structure Cpu where
  programme : List Step
  /-- the start instant, in hundredths from 2000-01-01 -/
  start : Option Int
  run : Option Run
  prev : Option (Run × EndCause)
deriving DecidableEq, Repr

/-! ## Link Unit (R174) -/

/-- A complete order frame in the receive buffer (R176). -/
structure RxOrder where
  held : Bool
  tag : Byte
  code : Byte
  body : List Byte
deriving DecidableEq, Repr

/-- The operations a held answer can wait for (R178). -/
inductive HeldOp where
  | survey
  | pnStart
  | pnStop
  | pnSweep
  | shutterClose (station : Fin 16)
  | shutterRaise (station : Fin 16)
  | call (number : Nat)
  | announcement (number : Nat)
deriving DecidableEq, Repr

structure HeldAnswer where
  tag : Byte
  code : Byte
  op : HeldOp
deriving DecidableEq, Repr

/-- The results a survey ends with (R38). -/
inductive SurveyResult where
  | done (entries : Nat)
  | failed (counts : List (Fin 8 × Nat × Nat))
  | abandoned (cause : AbandonCause)
deriving DecidableEq, Repr

/-- The notices (R179), each with the fields its rule lists. -/
inductive Notice where
  /-- R181 -/
  | restarted (kind : RestartKind)
  /-- R96 -/
  | fire (active : Bool) (alarmed standing : BitVec 6) (zone : Option (Fin 6))
  /-- R91 -/
  | zone (zone : Fin 6) (prev now : ZoneState) (declared enabled level : Bool) (cause : ZoneCause)
  /-- R40 -/
  | pnStopped (prev now : PnState) (added : Option Cause) (causes : CauseSet) (startFaults : Nat)
  /-- R85 -/
  | forced (stations : BitVec 16) (cause : ForcedCause)
  /-- R80 -/
  | shutterFault (station : Fin 16) (added faults : BitVec 8)
  /-- R16 -/
  | power (source : Source) (batteryLow : Bool)
  /-- R40 -/
  | pnState (prev now : PnState) (demand : Demand) (position target : Option Nat) (purpose : Purpose)
  /-- R68 -/
  | shutterState (station : Fin 16) (prev : Option ShutterState) (now : ShutterState) (cause : ShutterCause)
  /-- R120 -/
  | callEnd (call : Call) (outcome : CallOutcome) (line : Option (Fin 10)) (escalation : Escalation)
  /-- R144 -/
  | announceEnd (ann : Announcement) (outcome : AnnOutcome) (cause : AnnCause) (skip : Skip)
  /-- R167 -/
  | step (index : Nat) (action : Action) (due : Int) (record : StepRecord)
  /-- R8 -/
  | mode (prev now : StoreMode) (cause : ModeCause) (passed : Bool) (wake : BitVec 3)
  /-- R38 -/
  | surveyEnd (result : SurveyResult)
  /-- R157 -/
  | timebase (ref : Reference) (fault : Bool)
  /-- R133 -/
  | phrase (slot : Fin 64) (state : SlotState) (length : Nat) (check computed : BitVec 16)
  /-- R161 -/
  | stamp (slot : Fin 5) (stamp : Stamp)
deriving DecidableEq, Repr

/-- A frame of the outbox: an answer, a final answer or a notice (R182). -/
inductive OutFrame where
  | answer (tag code : Byte) (outcome : Outcome) (reason : Reason) (data : List Byte)
  | final (tag code : Byte) (outcome : Outcome) (reason : Reason) (data : List Byte)
  | notice (n : Notice)
deriving DecidableEq, Repr

structure Lnk where
  rate : LineRate
  /-- the bytes of the frame in reception, its start byte first -/
  reception : Option (List Byte)
  rxBuf : List RxOrder
  outbox : List OutFrame
  held : List HeldAnswer
  lost : Bool
deriving DecidableEq, Repr

/-! ## Lines (00, section 4) -/

/-- The input lines that hold a level. ENC, IDX and the sill lines are taken at their edges only (5.6, R30). -/
structure Lines where
  mainsOk : Bool
  battLow : Bool
  commission : Bool
  staffKey : Bool
  resetN : Bool
  drvReady : Bool
  drvFault : Bool
  cords : BitVec 8
  guards : BitVec 8
  openLim : BitVec 16
  closedLim : BitVec 16
  edge : BitVec 16
  zoneIn : BitVec 6
  answer : BitVec 10
  /-- the SPD1:0 straps -/
  spd : BitVec 2
  /-- the crystal runs -/
  crystal : Bool
deriving DecidableEq, Repr

/-- The output lines. TXD carries the outbox and has no field (log 15). -/
structure Out where
  demand : Demand
  outA : BitVec 16
  outB : BitVec 16
  bells : BitVec 10
  bellPwr : Bool
  ampEn : Bool
  grillePwr : Bool
  spk : BitVec 8
  /-- the samples being sent: the 128 bytes of the block, or the mid-scale sample -/
  audio : List Byte
deriving DecidableEq, Repr

/-! ## The state -/

/-- What the eight acting blocks hold, the stamp table, and the output lines. -/
structure Store where
  msu : Msu
  cht : Cht
  pnc : Pnc
  shc : Shc
  fzu : Fzu
  blx : Blx
  anp : Anp
  stamps : Vector Stamp 5
  cpu : Cpu
  out : Out
deriving DecidableEq, Repr

/-- What an event's claims only read: the input lines, the Time Base and the Phrase Store. -/
structure Env where
  lines : Lines
  tmb : Tmb
  phs : Phs
deriving DecidableEq, Repr

/-- The state of the part, and the commands waiting for it, first in first out (log 1). -/
structure State extends Store, Env where
  lnk : Lnk
  pending : List Instr
deriving DecidableEq, Repr

/-! ## An event under way -/

/-- What a block offers the Link Unit in an event: a notice (R179), or the end of a long operation (R178). -/
inductive Offer where
  | notice (n : Notice)
  | ended (op : HeldOp) (outcome : Outcome) (reason : Reason) (data : List Byte)
deriving DecidableEq, Repr

/-- One event under way: the store as the claims made so far leave it, what they read, what was offered, and what the
event's notices and re-evaluations compare with. The Link Unit is not in it, so no claim can touch it. -/
structure Ev extends Store, Env where
  offers : List Offer
  /-- the paternoster state at the start of the event (R40) -/
  pn0 : PnState
  /-- a restart reports the paternoster's state whatever it was (R65) -/
  pnForce : Bool
  /-- the cause this event entered ESTOP with -/
  pnCause : Option Cause
  /-- the pending set and the shutter gate as Paternoster Control last saw them -/
  p0 : BitVec 8
  gate0 : Bool
  /-- DRV_READY has become active in this event (R60) -/
  drvRose : Bool
  mode0 : StoreMode
  modeCause : Option ModeCause
  /-- the event entered NIGHT and left it again (R13) -/
  passed : Bool
deriving DecidableEq, Repr

/-- What a block answers an order with (R177, R178). -/
inductive OrderResult where
  /-- REFUSED: no effect (5.9) -/
  | refused (reason : Reason) (data : List Byte)
  /-- DONE, with nothing changed -/
  | report (data : List Byte)
  /-- DONE, with a change no other block acts on, and the notices it offers -/
  | quiet (v : Env) (st : Store) (notices : List Notice) (data : List Byte)
  /-- an event of the blocks, whose operation a held answer may wait for -/
  | acted (outcome : Outcome) (op : Option HeldOp) (data : List Byte) (v : Env) (e : Ev)
  /-- a restart, which is not answered (R22) -/
  | restart (kind : RestartKind)

/-- What a block answers a claim or a shared request with. -/
inductive ClaimResult where
  | refused (reason : Reason)
  | done
  | started (e : Ev)

/-- What a post to the Bell Exchange or the Announcement Player comes to (R111, R141). -/
inductive PostResult where
  | refused (reason : Reason)
  | merged (number : Nat) (e : Ev)
  | admitted (number : Nat) (e : Ev)

/-- The part has no fault: the spec names no command that stops it (log 1). -/
inductive Fault where
deriving DecidableEq, Repr

/-- Reasons a step has no meaning. -/
inductive Refusal where
  /-- The command has no meaning in the model. Raised by no arm of `exec`; safe. -/
  | notModelled (mnemonic : String)
deriving DecidableEq, Repr

/-! ## The values of reset (R1, R24, R39, R66, R89, R106, R127, R138, R152, R163, R174) -/

/-- The line levels the model starts from: DESIGN CHOICE, log 6, unsafe. -/
def Lines.reset : Lines where
  mainsOk := true
  battLow := false
  commission := false
  staffKey := false
  resetN := false
  drvReady := false
  drvFault := false
  cords := 0
  guards := 0
  openLim := 0
  closedLim := 0
  edge := 0
  zoneIn := 0
  answer := 0
  spd := 0
  crystal := true

def Msu.reset : Msu where
  mode := .setup
  wake := 0
  source := .mains
  batteryLow := false
  bellPermit := false
  announcePermit := false
  grillePermit := false
  key := false

def ChainSettings.reset : ChainSettings where
  loopLength := 0
  cars := 0
  levelTol := 4
  indexTol := 8
  stopLead := 6
  creepTimeout := 30

def Cht.reset : Cht where
  settings := .reset
  landings := Vector.replicate 8 ⟨false, [], []⟩
  clearList := []
  position := none
  settled := false
  settleWait := some 50
  survey := none
  surveyTimer := none
  clear := 0

def CauseSet.empty : CauseSet where
  cord := 0
  guard := 0
  sillMismatch := 0
  shutterMoved := 0
  driveFault := false
  chainSlip := false
  creepTimeout := false
  stopMissed := false
  clearance := false
  host := false

def Pnc.reset : Pnc where
  state := .halted
  purpose := .normal
  target := none
  missCount := 0
  startFaults := 0
  causes := .empty
  sweepCount := 0
  creepPending := false
  startTimer := none
  creepTimer := none
  sweepClaimed := false

def Shc.reset : Shc where
  stations := Vector.replicate 16 none

def Fzu.reset : Fzu where
  zones := Vector.replicate 6 ⟨true, 0, .quiet, false⟩
  fire := false
  deadline := .cleared
  hold := .stopped
  clearanceWait := 10
  reserveHold := 5
  fireScript := none
  alertCode := [3, 3]
  fireRepeat := 30

def Ringer.idle : Ringer where
  state := .idle
  held := none
  lines := 0
  stroke := ⟨[], 0, 0, false⟩
  timer := none

def Blx.reset : Blx where
  present := 0x3FF
  gap := 6
  window := 15
  queue := []
  ringers := Vector.replicate 3 .idle
  nextNumber := 1
  nextSeq := 0

def Phs.reset : Phs where
  storage := []
  slots := Vector.replicate 64 ⟨0, 0, [], none⟩

def Anp.reset : Anp where
  scripts := Vector.replicate 16 ⟨[], false, 0⟩
  queue := []
  playing := none
  state := .idle
  fire := false
  cursor := ⟨false, 0, 0, 0⟩
  pendingCut := false
  skip := ⟨0, false⟩
  next := 1
  script := ⟨[], false, 0⟩
  sounding := none
  timer := none
  firePause := false

def Tmb.reset : Tmb where
  cal := ⟨⟨2000, 1, 1⟩, 0, 0, 0, 0⟩
  timeUnset := true
  trim := 0
  ref := .crystal
  fault := false
  weekly := Vector.replicate 7 .closed
  exceptions := []
  today := .closed
  divider := 0
  ownTime := 0

def Cpu.reset : Cpu where
  programme := []
  start := none
  run := none
  prev := none

def Out.reset : Out where
  demand := .off
  outA := 0
  outB := 0
  bells := 0
  bellPwr := false
  ampEn := false
  grillePwr := false
  spk := 0
  audio := [Config.midScale]

def Store.reset : Store where
  msu := .reset
  cht := .reset
  pnc := .reset
  shc := .reset
  fzu := .reset
  blx := .reset
  anp := .reset
  stamps := Vector.replicate 5 ⟨.first, 0, none, 0⟩
  cpu := .reset
  out := .reset

def Env.reset : Env where
  lines := .reset
  tmb := .reset
  phs := .reset

/-- The outbox after power-on: N-RESTARTED, then the notices of the blocks' restarts (R181, R23, R104, R65). -/
def Lnk.reset : Lnk where
  rate := .b9600
  reception := none
  rxBuf := []
  outbox := [.notice (.restarted .powerOn), .notice (.power .mains false), .notice (.fire false 0 0 none),
    .notice (.pnState .halted .halted .off none none .normal)]
  held := []
  lost := false

/-- The machine right after power-on, with the line levels of log 6. -/
def State.reset : State where
  toStore := .reset
  toEnv := .reset
  lnk := .reset
  pending := []

end Sys2Proof.Machine
end

