-- ==== Sys2Proof/Machine/Ops.lean ====
section
/-! DEFINITION. The named operations every family shares: sets, tables, timers, the block storage, and what an event
does to itself (offers, changes of a block's state, stamp claims). -/
namespace Sys2Proof.Machine

/-! ## Sets (5.4): member `m` is bit `m` -/

/-- The set `s` with the member `m`. -/
def adjoin {n : Nat} (s : BitVec n) (m : Nat) : BitVec n := s ||| BitVec.ofNat n (2 ^ m)

/-- The set `s` without the member `m`. -/
def strike {n : Nat} (s : BitVec n) (m : Nat) : BitVec n := s &&& ~~~ BitVec.ofNat n (2 ^ m)

/-- `m` put into `s` or taken out of it. -/
def setBit {n : Nat} (s : BitVec n) (m : Nat) (on : Bool) : BitVec n := if on then adjoin s m else strike s m

/-- How many members a set has. -/
def card {n : Nat} (s : BitVec n) : Nat := ((List.range n).filter fun m => s.getLsbD m).length

/-- The lowest member of a set. -/
def lowest {n : Nat} (s : BitVec n) : Option Nat := (List.range n).find? fun m => s.getLsbD m

/-- The set of the members that satisfy `p`. -/
def setOf (n : Nat) (p : Fin n → Bool) : BitVec n :=
  (List.finRange n).foldl (fun s m => if p m then adjoin s m.val else s) 0

/-! ## Tables -/

/-- The table `v` with `x` at `i`. -/
def put {α : Type} {n : Nat} (v : Vector α n) (i : Fin n) (x : α) : Vector α n := v.set i.val x i.isLt

/-- Some entry of the table satisfies `p`. -/
def anyOf {α : Type} {n : Nat} (v : Vector α n) (p : α → Bool) : Bool := (List.finRange n).any fun i => p v[i]

/-- Every entry of the table satisfies `p`. -/
def allOf {α : Type} {n : Nat} (v : Vector α n) (p : α → Bool) : Bool := (List.finRange n).all fun i => p v[i]

/-- `x` inserted into an ascending list that does not hold it yet. -/
def insertAscending (x : Nat) : List Nat → List Nat
  | [] => [x]
  | y :: ys => if x < y then x :: y :: ys else if x = y then y :: ys else y :: insertAscending x ys

/-- The first entry of a list with the smallest key. -/
def argMin {α : Type} (key : α → Nat) : List α → Option α
  | [] => none
  | x :: xs =>
    match argMin key xs with
    | none => some x
    | some y => if key y < key x then some y else some x

/-- `x` inserted before the first entry with a greater key, so that a fold of it sorts stably. -/
def insertBy {α : Type} (key : α → Int) (x : α) : List α → List α
  | [] => [x]
  | y :: ys => if key x < key y then x :: y :: ys else y :: insertBy key x ys

/-- A list in ascending order of its keys, entries of equal key in their first order. -/
def sortBy {α : Type} (key : α → Int) (xs : List α) : List α := xs.foldl (fun ys x => insertBy key x ys) []

/-- The first number at or after `n`, wrapping from 255 to 1, that `used` does not hold (R109, R140). -/
def freeNumber (used : List Nat) : Nat → Nat → Nat
  | 0, n => n
  | fuel + 1, n => if used.contains n then freeNumber used fuel (if n < 255 then n + 1 else 1) else n

/-- The number after `n`, wrapping from 255 to 1 (R109, R140). -/
def nextNumber (n : Nat) : Nat := if n < 255 then n + 1 else 1

/-! ## The block storage (R127): ascending addresses, nothing listed that reads as an unlisted byte does -/

/-- The byte at an address. -/
def Memory.read : List Host.Cell → Nat → Byte
  | [], _ => Config.blankByte
  | (a, b) :: m, x => if x = a then b else Memory.read m x

/-- The storage with `v` at `x`. -/
def Memory.write : List Host.Cell → Nat → Byte → List Host.Cell
  | [], x, v => if v = Config.blankByte then [] else [(x, v)]
  | (a, b) :: m, x, v =>
    if x < a then (if v = Config.blankByte then (a, b) :: m else (x, v) :: (a, b) :: m)
    else if x = a then (if v = Config.blankByte then m else (x, v) :: m)
    else (a, b) :: Memory.write m x v

/-- The storage with the bytes of a list from `x` on. -/
def Memory.writeAll : List Host.Cell → Nat → List Byte → List Host.Cell
  | m, _, [] => m
  | m, x, v :: vs => Memory.writeAll (Memory.write m x v) (x + 1) vs

/-- `n` bytes from `x` on. -/
def Memory.readAll (m : List Host.Cell) (x n : Nat) : List Byte := (List.range n).map fun i => Memory.read m (x + i)

/-- Every listed address is at or above `lo`, addresses rise, and no listed byte is blank. -/
def Memory.wfFrom : Nat → List Host.Cell → Bool
  | _, [] => true
  | lo, (a, b) :: m => decide (lo ≤ a) && decide (b ≠ Config.blankByte) && Memory.wfFrom (a + 1) m

/-- The canonical form of the storage. -/
def Memory.wf (m : List Host.Cell) : Bool := Memory.wfFrom 0 m

/-! ## Checks in the order of a table: the first that fails gives the reason -/

def firstFailure : List (Bool × Reason) → Option Reason
  | [] => none
  | (holds, r) :: rest => if holds then firstFailure rest else some r

/-- The answer `ok` when every check holds, else a refusal with the reason of the first that fails (5.9). -/
def OrderResult.after (checks : List (Bool × Reason)) (ok : OrderResult) : OrderResult :=
  match firstFailure checks with
  | some r => .refused r []
  | none => ok

/-! ## Timers: own time in hundredths of a second (R98, log 8) -/

/-- The time left on a timer. -/
def Timer.left (t : Timer) (now : Nat) : Nat :=
  match t with
  | none => 0
  | some x => x - now

/-- The time a descent timer has run (R66, R73). -/
def Descent.ran (now : Nat) : Descent → Nat
  | .stopped => 0
  | .running start ran => ran + (now - start)
  | .paused ran => ran

/-! ## An event -/

namespace Ev

/-- The part's own time at the event. -/
def now (e : Ev) : Nat := e.tmb.ownTime

/-- A timer that runs for `n` hundredths from the event. -/
def timer (e : Ev) (n : Nat) : Timer := some (e.now + n)

/-- Offer a notice to the Link Unit (R179). -/
def notice (n : Notice) (e : Ev) : Ev := { e with offers := e.offers ++ [.notice n] }

/-- Hand the end of a long operation to the Link Unit (R178). -/
def ended (op : HeldOp) (o : Outcome) (r : Reason) (data : List Byte) (e : Ev) : Ev :=
  { e with offers := e.offers ++ [.ended op o r data] }

def setMsu (f : Msu → Msu) (e : Ev) : Ev := { e with msu := f e.msu }
def setCht (f : Cht → Cht) (e : Ev) : Ev := { e with cht := f e.cht }
def setPnc (f : Pnc → Pnc) (e : Ev) : Ev := { e with pnc := f e.pnc }
def setShc (f : Shc → Shc) (e : Ev) : Ev := { e with shc := f e.shc }
def setFzu (f : Fzu → Fzu) (e : Ev) : Ev := { e with fzu := f e.fzu }
def setBlx (f : Blx → Blx) (e : Ev) : Ev := { e with blx := f e.blx }
def setAnp (f : Anp → Anp) (e : Ev) : Ev := { e with anp := f e.anp }
def setCpu (f : Cpu → Cpu) (e : Ev) : Ev := { e with cpu := f e.cpu }
def setStamps (f : Vector Stamp 5 → Vector Stamp 5) (e : Ev) : Ev := { e with stamps := f e.stamps }

/-- The claims of `f` made when `c` holds. -/
def when (c : Bool) (f : Ev → Ev) (e : Ev) : Ev := if c then f e else e

/-- One claim for each member of a list, in its order. -/
def forEach {α : Type} (xs : List α) (f : α → Ev → Ev) (e : Ev) : Ev := xs.foldl (fun e x => f x e) e

/-- A stamp slot after a claim: whether the claim wrote it, and what it holds (R161). -/
def stampAfter (s : Stamp) (cal : CalTime) (unset : Bool) (detail : Nat) : Bool × Stamp :=
  let counted := { s with count := if s.count < 255 then s.count + 1 else 255 }
  if s.count = 0 ∨ s.mode = .last then (true, { counted with time := some (cal, unset), detail := detail })
  else (false, counted)

/-- A stamp claim to the Time Base (R161). -/
def stamp (slot : Fin 5) (detail : Nat) (e : Ev) : Ev :=
  let r := stampAfter e.stamps[slot] e.tmb.cal e.tmb.timeUnset detail
  ((e.setStamps fun t => put t slot r.2).when r.1) (notice (.stamp slot r.2))

end Ev

/-- The stamp slots (R162). -/
def stampFire : Fin 5 := 0
def stampEstop : Fin 5 := 1
def stampMains : Fin 5 := 2
def stampStaffKey : Fin 5 := 3
def stampForced : Fin 5 := 4

end Sys2Proof.Machine
end

