-- ==== Sys2Proof/Machine/Calendar.lean ====
section
/-! DEFINITION. Calendar arithmetic (R153): month lengths, weekdays, and instants counted in hundredths of a second
from 2000-01-01 00:00:00.00. -/
namespace Sys2Proof.Machine

/-- Days of a month; February has 29 in every year from 2000 to 2099 divisible by 4 (R153). -/
def monthLength (year month : Nat) : Nat :=
  if month = 2 then (if year % 4 = 0 then 29 else 28)
  else if month = 4 ∨ month = 6 ∨ month = 9 ∨ month = 11 then 30 else 31

namespace Date

/-- A date the calendar can hold (R154). -/
def valid (d : Date) : Bool :=
  decide (2000 ≤ d.year) && decide (d.year ≤ 2099) && decide (1 ≤ d.month) && decide (d.month ≤ 12) &&
    decide (1 ≤ d.day) && decide (d.day ≤ monthLength d.year d.month)

/-- Days of the year before the first of a month. -/
def daysBefore (year month : Nat) : Nat := ((List.range (month - 1)).map fun m => monthLength year (m + 1)).sum

/-- Days from 2000-01-01 to a date. -/
def days (d : Date) : Nat := 365 * (d.year - 2000) + (d.year - 2000 + 3) / 4 + daysBefore d.year d.month + (d.day - 1)

/-- The day after a date; 2099-12-31 is followed by 2000-01-01 (R153). -/
def tomorrow (d : Date) : Date :=
  if d.day < monthLength d.year d.month then { d with day := d.day + 1 }
  else if d.month < 12 then ⟨d.year, d.month + 1, 1⟩
  else if d.year < 2099 then ⟨d.year + 1, 1, 1⟩
  else ⟨2000, 1, 1⟩

/-- The weekday, 1 Monday to 7 Sunday; 2000-01-01 is a Saturday (R153). -/
def weekday (d : Date) : Nat := (d.days + 5) % 7 + 1

/-- `d` lies before `d'`. -/
def before (d d' : Date) : Bool := decide (d.days < d'.days)

/-- The date `rest` days into `month` of `year`, walking at most `fuel` months. -/
def walkMonths (year rest : Nat) : Nat → Nat → Date
  | 0, month => ⟨year, month, rest + 1⟩
  | fuel + 1, month =>
    if rest < monthLength year month then ⟨year, month, rest + 1⟩
    else walkMonths year (rest - monthLength year month) fuel (month + 1)

/-- The date `rest` days into `year`, walking at most `fuel` years. -/
def walkYears (rest : Nat) : Nat → Nat → Date
  | 0, year => walkMonths year rest 11 1
  | fuel + 1, year =>
    let n := if year % 4 = 0 then 366 else 365
    if rest < n then walkMonths year rest 11 1 else walkYears (rest - n) fuel (year + 1)

/-- The date so many days after 2000-01-01, within the century (log 31). -/
def ofDays (n : Nat) : Date := walkYears (n % 36525) 99 2000

end Date

namespace CalTime

/-- A calendar time the calendar can hold (R154). -/
def valid (c : CalTime) : Bool :=
  c.date.valid && decide (c.hour ≤ 23) && decide (c.minute ≤ 59) && decide (c.second ≤ 59) && decide (c.hundredths ≤ 99)

/-- Hundredths of a second since midnight. -/
def ofDay (c : CalTime) : Nat := ((c.hour * 60 + c.minute) * 60 + c.second) * 100 + c.hundredths

/-- Hundredths of a second from 2000-01-01 00:00:00.00. -/
def abs (c : CalTime) : Int := (c.date.days * 8640000 + c.ofDay : Nat)

/-- The calendar time so many hundredths after 2000-01-01 00:00:00.00, within the century (log 31). -/
def ofAbs (x : Int) : CalTime :=
  let n := (x % (36525 * 8640000)).toNat
  let t := n % 8640000
  ⟨Date.ofDays (n / 8640000), t / 360000, t / 6000 % 60, t / 100 % 60, t % 100⟩

/-- 23:59:59.99: the next hundredth is the midnight rollover (R153). -/
def lastOfDay (c : CalTime) : Bool :=
  decide (c.hour = 23) && decide (c.minute = 59) && decide (c.second = 59) && decide (c.hundredths = 99)

/-- The next hundredth (R153). -/
def tick (c : CalTime) : CalTime :=
  if c.hundredths < 99 then { c with hundredths := c.hundredths + 1 }
  else if c.second < 59 then { c with second := c.second + 1, hundredths := 0 }
  else if c.minute < 59 then { c with minute := c.minute + 1, second := 0, hundredths := 0 }
  else if c.hour < 23 then { c with hour := c.hour + 1, minute := 0, second := 0, hundredths := 0 }
  else ⟨c.date.tomorrow, 0, 0, 0, 0⟩

end CalTime

/-- The instant of a minute of a date, in hundredths from 2000-01-01 00:00:00.00. -/
def instantOf (d : Date) (minutes : Int) : Int := (d.days : Int) * 8640000 + minutes * 6000

end Sys2Proof.Machine
end

