-- ==== Sys2Proof/Machine/Formats.lean ====
section
/-! DEFINITION. Frame and record formats: the codes of 12.2 and 12.3, the encodings of the field types (R183), the
bodies of the notices (R184 and the rule of each), and the bytes of a frame (R182). -/
namespace Sys2Proof.Machine

/-! ## Codes of enumerated items (12.2, 12.3) -/

/-- Codes: store mode. -/
def StoreMode.code : StoreMode → Nat
  | .setup => 0  | .trading => 1  | .closing => 2  | .night => 3

/-- Codes: power source, bit 0 of the power byte. -/
def Source.code : Source → Nat
  | .mains => 0  | .reserve => 1

/-- Codes: outcome. -/
def Outcome.code : Outcome → Nat
  | .done => 0  | .started => 1  | .merged => 2  | .refused => 3  | .ended => 4

/-- Codes: reason. -/
def Reason.code : Reason → Nat
  | .none => 0  | .form => 1  | .range => 2  | .unknown => 3  | .state => 4  | .mode => 5  | .locked => 6
  | .full => 7  | .fire => 8  | .moving => 9  | .notClear => 10  | .power => 11  | .heldFull => 12
  | .notReady => 13  | .busy => 14  | .timeUnset => 15  | .unanswered => 16  | .cut => 17  | .dropped => 18
  | .abandoned => 19  | .fault => 20  | .cancelled => 21  | .sillCount => 22

/-- Codes: restart option and kind. -/
def RestartKind.code : RestartKind → Nat
  | .powerOn => 0  | .cold => 1  | .warm => 2

/-- Codes: cause of N-MODE (R184). -/
def ModeCause.code : ModeCause → Nat
  | .commence => 0  | .runStart => 1  | .nightStep => 2  | .forceNight => 3  | .cancel => 4  | .wake => 5
  | .restart => 6

/-- Codes: paternoster state. -/
def PnState.code : PnState → Nat
  | .halted => 0  | .starting => 1  | .running => 2  | .sweeping => 3  | .creeping => 4  | .settling => 5
  | .held => 6  | .estop => 7  | .lockedOut => 8  | .nightLock => 9  | .survey => 10  | .powerStop => 11

/-- Codes: drive demand. -/
def Demand.code : Demand → Nat
  | .off => 0  | .creep => 1  | .service => 2

/-- Codes: stop purpose. -/
def Purpose.code : Purpose → Nat
  | .normal => 0  | .sweep => 1  | .fire => 2

/-- Codes: survey abandon cause. -/
def AbandonCause.code : AbandonCause → Nat
  | .fire => 0  | .estop => 1  | .power => 2  | .host => 3  | .key => 4  | .timeout => 5

/-- Codes: shutter kind. -/
def ShutterKind.code : ShutterKind → Nat
  | .fire => 0  | .grille => 1

/-- Codes: shutter state. -/
def ShutterState.code : ShutterState → Nat
  | .opened => 0  | .releaseWait => 1  | .descending => 2  | .obstructed => 3  | .closed => 4  | .raising => 5
  | .haltedPart => 6

/-- Codes: shutter state-change cause. -/
def ShutterCause.code : ShutterCause → Nat
  | .order => 0  | .programme => 1  | .fire => 2  | .deadline => 3  | .reserve => 4  | .limit => 5
  | .edge => 6  | .timeout => 7  | .supply => 8  | .define => 9  | .restart => 10

/-- Codes: cause of N-FORCED (R184). -/
def ForcedCause.code : ForcedCause → Nat
  | .deadline => 0  | .late => 1  | .reserveHold => 2  | .batteryLow => 3

/-- Codes: zone state. -/
def ZoneState.code : ZoneState → Nat
  | .quiet => 0  | .alarmed => 1  | .standing => 2

/-- Codes: zone change cause. -/
def ZoneCause.code : ZoneCause → Nat
  | .input => 0  | .declare => 1  | .reset => 2  | .enable => 3  | .disable => 4  | .restart => 5

/-- Codes: call class. -/
def CallClass.code : CallClass → Nat
  | .urgent => 0  | .watch => 1  | .closing => 2  | .routine => 3

/-- Codes: announcement class. -/
def AnnClass.code : AnnClass → Nat
  | .closing => 0  | .routine => 1

/-- Codes: call and announcement origin. -/
def Origin.code : Origin → Nat
  | .host => 0  | .programme => 1

/-- Codes: call outcome. -/
def CallOutcome.code : CallOutcome → Nat
  | .rung => 0  | .answered => 1  | .unanswered => 2  | .cancelled => 3  | .unrung => 4

/-- Codes: announcement outcome. -/
def AnnOutcome.code : AnnOutcome → Nat
  | .played => 0  | .cancelled => 1  | .cut => 2  | .dropped => 3

/-- Codes: announcement cause. -/
def AnnCause.code : AnnCause → Nat
  | .none => 0  | .cancel => 1  | .fire => 2  | .night => 3  | .power => 4

/-- Codes: player state. -/
def PlayerState.code : PlayerState → Nat
  | .idle => 0  | .preparing => 1  | .sounding => 2  | .gap => 3

/-- Codes: phrase slot state. -/
def SlotState.code : SlotState → Nat
  | .empty => 0  | .declared => 1  | .loading => 2  | .ready => 3  | .faulty => 4

/-- Codes: reference in use. -/
def Reference.code : Reference → Nat
  | .crystal => 0  | .internal => 1

/-- Codes: stamp mode. -/
def StampMode.code : StampMode → Nat
  | .first => 0  | .last => 1

/-- Codes: step outcome. -/
def StepOutcome.code : StepOutcome → Nat
  | .pending => 0  | .done => 1  | .dropped => 2  | .late => 3  | .deferred => 4  | .failed => 5
  | .waiting => 6

/-- Codes: run start cause. -/
def StartCause.code : StartCause → Nat
  | .auto => 0  | .order => 1

/-- Codes: run end cause. -/
def EndCause.code : EndCause → Nat
  | .nightStep => 0  | .cancel => 1  | .forceNight => 2

/-- Codes: ringer state. -/
def RingerState.code : RingerState → Nat
  | .idle => 0  | .striking => 1  | .pausing => 2  | .awaiting => 3

/-- The order codes (12.2). -/
def orderCodes : List Nat :=
  [0x01, 0x02, 0x03, 0x04, 0x05, 0x06, 0x07, 0x10, 0x11, 0x12, 0x13, 0x14, 0x15, 0x16, 0x17, 0x18, 0x19, 0x1A, 0x1B,
    0x1C, 0x1D, 0x20, 0x21, 0x22, 0x23, 0x24, 0x25, 0x30, 0x31, 0x32, 0x33, 0x34, 0x35, 0x36, 0x40, 0x41, 0x42, 0x43,
    0x50, 0x51, 0x52, 0x60, 0x61, 0x62, 0x63, 0x64, 0x70, 0x71, 0x72, 0x73, 0x74, 0x75, 0x76, 0x77, 0x78, 0x79, 0x7A,
    0x80, 0x81, 0x82, 0x83, 0x84]

/-- The code is one of the order codes (R177). -/
def isOrderCode (c : Byte) : Bool := orderCodes.contains c.toNat

/-- The long-operation orders (R178). -/
def isLongOperation (c : Byte) : Bool := [0x15, 0x16, 0x17, 0x18, 0x22, 0x23, 0x41, 0x62].contains c.toNat

/-- Codes of emergency-stop causes in N-PN-STOPPED (R184). -/
def Cause.code : Cause → Nat
  | .cord _ => 1  | .guard _ => 2  | .driveFault => 3  | .chainSlip => 4  | .sillMismatch _ => 5
  | .creepTimeout => 6  | .stopMissed => 7  | .clearance => 8  | .shutterMoved _ => 9  | .host => 10

/-- The detail of a cause (R39): the landing, the shutter, or 0. -/
def Cause.detail : Cause → Nat
  | .cord l => l.val
  | .guard l => l.val
  | .sillMismatch l => l.val
  | .shutterMoved s => s.val
  | _ => 0

/-! ## The fault kinds of a shutter (R183) -/

def FaultKind.notProven : BitVec 8 := 0x01
def FaultKind.limitConflict : BitVec 8 := 0x02
def FaultKind.descentSlow : BitVec 8 := 0x04
def FaultKind.magnetStuck : BitVec 8 := 0x08
def FaultKind.raiseSlow : BitVec 8 := 0x10
def FaultKind.obstructedRepeat : BitVec 8 := 0x20
def FaultKind.limitLost : BitVec 8 := 0x40
def FaultKind.forced : BitVec 8 := 0x80

/-! ## Field encodings (R183) -/

namespace Enc

def byte (n : Nat) : List Byte := [BitVec.ofNat 8 n]

/-- Two bytes, high byte first (5.7). -/
def word (n : Nat) : List Byte := [BitVec.ofNat 8 (n / 256), BitVec.ofNat 8 n]

def flag (b : Bool) : List Byte := [if b then 1 else 0]

/-- A 1-byte number whose "none" is 0xFF. -/
def optByte (n : Option Nat) : List Byte := byte (n.getD 0xFF)

/-- A chain position; 0xFFFF is "unknown" or "none". -/
def position (p : Option Nat) : List Byte := word (p.getD 0xFFFF)

def set8 {n : Nat} (s : BitVec n) : List Byte := byte s.toNat
def set16 {n : Nat} (s : BitVec n) : List Byte := word s.toNat

/-- A 64-bit set, member m at bit m, high byte first (R184). -/
def set64 (s : BitVec 64) : List Byte := (List.range 8).map fun i => BitVec.ofNat 8 (s.toNat / 256 ^ (7 - i))

/-- A bell code: four stroke counts, unused trailing groups 0. -/
def bellCode (c : BellCode) : List Byte := (List.range 4).map fun i => BitVec.ofNat 8 (c.getD i 0)

/-- The trim, in two's complement. -/
def trim (t : Int) : List Byte := [BitVec.ofInt 8 t]

def date (d : Date) : List Byte := word d.year ++ byte d.month ++ byte d.day

def calTime (c : CalTime) : List Byte :=
  date c.date ++ byte c.hour ++ byte c.minute ++ byte c.second ++ byte c.hundredths

/-- An instant, as a calendar time (log 31). -/
def instant (x : Int) : List Byte := calTime (CalTime.ofAbs x)

/-- A stamp time: a calendar time and a mark byte, bit 0 absent, bit 1 taken while TIME_UNSET was set. -/
def stampTime : Option (CalTime × Bool) → List Byte
  | none => List.replicate 8 0 ++ byte 1
  | some (c, unset) => calTime c ++ byte (if unset then 2 else 0)

/-- The hours of a day: two times, both 0xFFFF when CLOSED. -/
def hours : Hours → List Byte
  | .closed => word 0xFFFF ++ word 0xFFFF
  | .times o c => word o ++ word c

/-- A skip record: item m at bit m, bit 15 the chime omitted. -/
def skip (s : Skip) : List Byte := word (s.items.toNat + if s.chime then 0x8000 else 0)

/-- The power byte: bit 0 RESERVE, bit 1 battery-low (R184). -/
def power (s : Source) (low : Bool) : List Byte := byte (s.code + if low then 2 else 0)

/-- The causes in force, cause c at bit c - 1 (R184). -/
def causeKinds (c : CauseSet) : Nat :=
  (if c.cord = 0 then 0 else 0x001) + (if c.guard = 0 then 0 else 0x002) + (if c.driveFault then 0x004 else 0) +
    (if c.chainSlip then 0x008 else 0) + (if c.sillMismatch = 0 then 0 else 0x010) +
    (if c.creepTimeout then 0x020 else 0) + (if c.stopMissed then 0x040 else 0) +
    (if c.clearance then 0x080 else 0) + (if c.shutterMoved = 0 then 0 else 0x100) + (if c.host then 0x200 else 0)

/-- The cause set with each cause's detail: the kinds, then the landings of CORD, GUARD and SILL_MISMATCH and the
shutters of SHUTTER_MOVED (R64, log 3). -/
def causeSet (c : CauseSet) : List Byte :=
  word (causeKinds c) ++ set8 c.cord ++ set8 c.guard ++ set8 c.sillMismatch ++ set16 c.shutterMoved

def stamp (s : Stamp) : List Byte := byte s.mode.code ++ byte s.count ++ stampTime s.time ++ byte s.detail

/-- The grille results of a step: their count, then the reason for each shutter of the set in station order, `none` when
its claim was accepted (R163, R170, log 3); the count 0 alone before its claims are made (log 60). -/
def grilles (rs : List (Fin 16 × Reason)) : List Byte := byte rs.length ++ rs.flatMap fun r => byte r.2.code

/-- The edge counts of a failed survey: the number of present landings, then for each, in landing order, the counts of its
up and down sides in two bytes each (R38, log 30). -/
def edgeCounts (cs : List (Fin 8 × Nat × Nat)) : List Byte :=
  byte cs.length ++ cs.flatMap fun c => word c.2.1 ++ word c.2.2

end Enc

/-! ## Notices (12.2, R184) -/

/-- Step action codes (R183). -/
def Action.code : Action → Nat
  | .announce _ _ => 0  | .bell _ _ _ => 1  | .sweep => 2  | .grilles _ => 3  | .night => 4

/-- A set without the member the added cause of this kind names. -/
def CauseSet.without (c : CauseSet) : Option Cause → CauseSet
  | some (.cord l) => { c with cord := strike c.cord l.val }
  | some (.guard l) => { c with guard := strike c.guard l.val }
  | some (.sillMismatch l) => { c with sillMismatch := strike c.sillMismatch l.val }
  | some (.shutterMoved s) => { c with shutterMoved := strike c.shutterMoved s.val }
  | _ => c

/-- The lowest landing or shutter detail of a CORD, GUARD, SILL_MISMATCH or SHUTTER_MOVED cause (R184). -/
def CauseSet.lowestDetail (c : CauseSet) : Option Nat :=
  lowest ((c.cord ||| c.guard ||| c.sillMismatch).setWidth 16 ||| c.shutterMoved)

namespace Notice

/-- Notice codes (12.2). -/
def code : Notice → Nat
  | .restarted .. => 0x01  | .fire .. => 0x02  | .zone .. => 0x03  | .pnStopped .. => 0x04  | .forced .. => 0x05
  | .shutterFault .. => 0x06  | .power .. => 0x07  | .pnState .. => 0x08  | .shutterState .. => 0x09
  | .callEnd .. => 0x0A  | .announceEnd .. => 0x0B  | .step .. => 0x0C  | .mode .. => 0x0D  | .surveyEnd .. => 0x0E
  | .timebase .. => 0x0F  | .phrase .. => 0x10  | .stamp .. => 0x11

/-- The notice is of the safety class (R179). -/
def safety : Notice → Bool
  | .restarted .. | .fire .. | .zone .. | .pnStopped .. | .forced .. | .shutterFault .. | .power .. => true
  | _ => false

/-- The body of a notice: its fields in the order its rule lists them (R184). The rounds of N-CALL-END take two bytes
(log 30), and its call number is 0 where the escalation result is none (log 62). The detail byte of an N-PN-STOPPED without a cause just added is 0 (log 50). -/
def body : Notice → List Byte
  | .restarted k => Enc.byte k.code
  | .fire a al st z => Enc.flag a ++ Enc.set8 al ++ Enc.set8 st ++ Enc.optByte (z.map Fin.val)
  | .zone z p n d en lv c => Enc.byte z.val ++ Enc.byte p.code ++ Enc.byte n.code ++ Enc.flag d ++ Enc.flag en ++
      Enc.flag lv ++ Enc.byte c.code
  | .pnStopped p n added cs sf => Enc.byte p.code ++ Enc.byte n.code ++
      Enc.byte ((added.map Cause.code).getD 0) ++ Enc.byte ((added.map Cause.detail).getD 0) ++
      Enc.word (Enc.causeKinds cs) ++ Enc.byte sf ++ Enc.optByte (cs.without added).lowestDetail
  | .forced ss c => Enc.set16 ss ++ Enc.byte c.code
  | .shutterFault s a f => Enc.byte s.val ++ Enc.set8 a ++ Enc.set8 f
  | .power s low => Enc.power s low
  | .pnState p n d pos t pu => Enc.byte p.code ++ Enc.byte n.code ++ Enc.byte d.code ++ Enc.position pos ++
      Enc.position t ++ Enc.byte pu.code
  | .shutterState s p n c => Enc.byte s.val ++ Enc.optByte (p.map ShutterState.code) ++ Enc.byte n.code ++
      Enc.byte c.code
  | .callEnd c o line esc => Enc.byte c.number ++ Enc.byte c.cls.code ++ Enc.byte c.origin.code ++
      Enc.bellCode c.code ++ Enc.set16 c.lines ++ Enc.byte o.code ++ Enc.word c.rounds ++
      Enc.optByte (line.map Fin.val) ++
      (match esc with
        | .none => Enc.byte 0 ++ Enc.byte 0
        | .escalated n => Enc.byte 1 ++ Enc.byte n
        | .merged n => Enc.byte 2 ++ Enc.byte n)
  | .announceEnd a o c sk => Enc.byte a.number ++ Enc.byte a.script.val ++ Enc.byte a.cls.code ++
      Enc.byte a.origin.code ++ Enc.byte o.code ++ Enc.byte c.code ++ Enc.skip sk
  | .step i a due r => Enc.byte i ++ Enc.byte a.code ++ Enc.instant due ++ Enc.byte r.outcome.code ++
      Enc.byte r.reason.code ++ (if a.code = 3 then Enc.grilles r.grilles else [])
  | .mode p n c passed w => Enc.byte p.code ++ Enc.byte n.code ++ Enc.byte c.code ++ Enc.flag passed ++ Enc.set8 w
  | .surveyEnd (.done n) => Enc.byte 0 ++ Enc.byte n
  | .surveyEnd (.failed cs) => Enc.byte 1 ++ Enc.edgeCounts cs
  | .surveyEnd (.abandoned c) => Enc.byte 2 ++ Enc.byte c.code
  | .timebase r f => Enc.byte r.code ++ Enc.flag f
  | .phrase s st n c x => Enc.byte s.val ++ Enc.byte st.code ++ Enc.word n ++ Enc.word c.toNat ++ Enc.word x.toNat
  | .stamp s st => Enc.byte s.val ++ Enc.stamp st

end Notice

/-! ## Frames (R182) and the CRC-16 (R134) -/

/-- One shift of the CRC register (R134). -/
def crcShift (r : BitVec 16) : BitVec 16 := if r.msb then (r <<< 1) ^^^ 0x1021 else r <<< 1

/-- The register after one byte. -/
def crcByte (r : BitVec 16) (b : Byte) : BitVec 16 :=
  crcShift (crcShift (crcShift (crcShift (crcShift (crcShift (crcShift (crcShift
    (r ^^^ (b.setWidth 16 <<< 8)))))))))

/-- The CRC-16 of a list of bytes (R134). -/
def crc16 (bs : List Byte) : BitVec 16 := bs.foldl crcByte 0xFFFF

/-- The frame of a kind, tag, code and body: start byte, length, contents and check (R182). None for a body no frame
can hold (log 24). -/
def frameBytes (kind tag code : Byte) (body : List Byte) : Option (List Byte) :=
  if body.length ≤ 247 then
    let inner := BitVec.ofNat 8 (body.length + 3) :: kind :: tag :: code :: body
    some (0xA5 :: inner ++ Enc.word (crc16 inner).toNat)
  else none

namespace OutFrame

/-- The body of an outbox frame: an answer's begins with its outcome and reason (R177, R182). -/
def body : OutFrame → List Byte
  | .answer _ _ o r data => Enc.byte o.code ++ Enc.byte r.code ++ data
  | .final _ _ o r data => Enc.byte o.code ++ Enc.byte r.code ++ data
  | .notice n => n.body

/-- The bytes TXD carries for an outbox frame (R182). -/
def bytes (f : OutFrame) : Option (List Byte) :=
  match f with
  | .answer tag code .. => frameBytes 0x20 tag code f.body
  | .final tag code .. => frameBytes 0x21 tag code f.body
  | .notice n => frameBytes (if n.safety then 0x31 else 0x30) 0 (BitVec.ofNat 8 n.code) f.body

end OutFrame

end Sys2Proof.Machine
end

