-- ==== Sys2Proof/WellFormed.lean ====
section
/-! DEFINITION. The commands the environment can give: what the operand types leave too wide. -/
namespace Sys2Proof

/-- The largest body a frame carries (R182). -/
def maxBody : Nat := 247

/-- A command that can come: a body fits its frame (R182), an unknown order's code names no order (R177), the bytes are no
more than the longest frame (R174), a length out of range is out of range (R175). -/
def Instr.wf : Instr → Bool
  | .unknownOrder _ code body => !Machine.isOrderCode code && decide (body.length ≤ maxBody)
  | .frameReceived bytes => decide (bytes.length ≤ 254)
  | .lengthOutOfRange len => decide (len.toNat < 3) || decide (250 < len.toNat)
  | .status _ body | .commence _ body | .restart _ body | .wake _ body | .clearWake _ body | .forceNight _ body
  | .permitsSet _ body | .chainSet _ body | .landingSet _ body | .landingRead _ body | .clearDerive _ body
  | .clearRead _ body | .survey _ body | .pnStart _ body | .pnStop _ body | .pnSweep _ body | .pnNightLock _ body
  | .pnHalt _ body | .pnReset _ body | .pnUnlock _ body | .pnRead _ body | .shutterSet _ body | .shutterRead _ body
  | .shutterClose _ body | .shutterRaise _ body | .shutterStop _ body | .shutterClear _ body | .zoneSet _ body
  | .zoneRead _ body | .zoneDeclare _ body | .zoneReset _ body | .zoneDisable _ body | .zoneEnable _ body
  | .fireSet _ body | .bellSet _ body | .callPost _ body | .callCancel _ body | .callRead _ body
  | .phraseDeclare _ body | .phraseLoad _ body | .phraseRead _ body | .scriptSet _ body | .scriptRead _ body
  | .announce _ body | .announceCancel _ body | .announceRead _ body | .timeSet _ body | .timeRead _ body
  | .trimSet _ body | .timebaseClear _ body | .weekSet _ body | .exceptionSet _ body | .exceptionRemove _ body
  | .hoursRead _ body | .stampRead _ body | .stampClear _ body | .stampMode _ body | .programmeSet _ body
  | .programmeRead _ body | .closingBegin _ body | .closingCancel _ body | .runRead _ body =>
    decide (body.length ≤ maxBody)
  | .receiveGapTimeout | .outboxFrameSent | .powerOn | .resetN | .mainsLoss | .mainsReturn | .battLowSet
  | .battLowClear | .staffKey | .commissionKeyChange _ | .encoderStep | .indexEdge | .sillEdge _ _
  | .settleWaitExpiry | .cordActive _ | .guardActive _ | .driveFaultActive | .drvReadyActive | .startWindowExpiry
  | .creepTimerExpiry | .surveyTimerExpiry | .openLimActive _ | .openLimInactive _ | .closedLimActive _
  | .closedLimInactive _ | .edgeActive _ | .edgeInactive _ | .descentTimerExpiry _ | .magnetCheckExpiry _
  | .edgeClearTimerExpiry _ | .raiseTimerExpiry _ | .zoneInActive _ | .zoneInInactive _ | .clearanceDeadlineExpiry
  | .reserveHoldExpiry | .roundComplete _ | .answerGuardClear _ | .repeatGapEnd _ | .answerWindowExpiry _
  | .answerInput _ | .preparingEnd | .blockBoundary | .gapEnd | .firePauseEnd | .calendarTick | .midnightRollover
  | .trimPeriodEnd | .crystalStop | .crystalResume | .openingTimeEvent | .startInstantReached | .stepDueInstant
  | .causeInputInactive _ | .drvReadyInactive | .answerInputInactive _ | .staffKeyInactive | .resetNInactive
  | .strokeTimeEnd _ | .missingStopBit => true

end Sys2Proof
end

