-- ==== Sys2Proof/Machine/Operands.lean ====
section
/-! DEFINITION. Reading the fields of an order's body (R183, R184, log 3). A field out of the range its type can hold
reads as none. -/
namespace Sys2Proof.Machine

/-- The body of an order, with its fields counted from its first byte (R184). -/
abbrev Body := List Byte

namespace Body

/-- The 1-byte number at `i`. -/
def byte (b : Body) (i : Nat) : Nat := (b.getD i 0).toNat

/-- The 2-byte number at `i`, high byte first (5.7). -/
def word (b : Body) (i : Nat) : Nat := byte b i * 256 + byte b (i + 1)

/-- The number at `i`, below `n`. -/
def fin (n : Nat) (b : Body) (i : Nat) : Option (Fin n) :=
  if h : byte b i < n then some ⟨byte b i, h⟩ else none

/-- The number below `n` at `i`, or none when the field holds 0xFF. -/
def optFin (n : Nat) (b : Body) (i : Nat) : Option (Option (Fin n)) :=
  if byte b i = 0xFF then some none else (fin n b i).map some

/-- The flag at `i` is 0 or 1. -/
def isFlag (b : Body) (i : Nat) : Bool := decide (byte b i ≤ 1)

def flag (b : Body) (i : Nat) : Bool := decide (byte b i = 1)

def set8 (b : Body) (i : Nat) : BitVec 8 := BitVec.ofNat 8 (byte b i)

/-- The 2-byte set at `i`. -/
def set16 (b : Body) (i : Nat) : BitVec 16 := BitVec.ofNat 16 (word b i)

/-- The 2-byte set of bell lines at `i`, none when it names a line above 9. -/
def lines (b : Body) (i : Nat) : Option (BitVec 10) :=
  if word b i < 1024 then some (BitVec.ofNat 10 (word b i)) else none

/-- `n` positions of two bytes from `i` on. -/
def words (b : Body) (i n : Nat) : List Nat := (List.range n).map fun k => word b (i + 2 * k)

/-- A bell code from its four counts: the counts before the first 0, when none of them is above 9 and no count
follows a 0 (R183). -/
def codeOf (counts : List Nat) : Option BellCode :=
  let code := counts.takeWhile (· ≠ 0)
  if code.isEmpty || code.any (· > 9) || (counts.drop code.length).any (· ≠ 0) then none else some code

def bellCode (b : Body) (i : Nat) : Option BellCode := codeOf ((List.range 4).map fun k => byte b (i + k))

def date (b : Body) (i : Nat) : Option Date :=
  let d : Date := ⟨word b i, byte b (i + 2), byte b (i + 3)⟩
  if d.valid then some d else none

def calTime (b : Body) (i : Nat) : Option CalTime :=
  let c : CalTime := ⟨⟨word b i, byte b (i + 2), byte b (i + 3)⟩, byte b (i + 4), byte b (i + 5), byte b (i + 6), byte b (i + 7)⟩
  if c.valid then some c else none

/-- The hours of a day: CLOSED, or an opening time before a closing time, both up to 1439 (R158). -/
def hours (b : Body) (i : Nat) : Option Hours :=
  let o := word b i
  let c := word b (i + 2)
  if o = 0xFFFF ∧ c = 0xFFFF then some .closed
  else if o < c ∧ c ≤ 1439 then some (.times o c) else none

/-- The signed byte at `i` (two's complement). -/
def signed (b : Body) (i : Nat) : Int := (b.getD i 0).toInt

def callClass (b : Body) (i : Nat) : Option CallClass :=
  match byte b i with
  | 0 => some .urgent | 1 => some .watch | 2 => some .closing | 3 => some .routine | _ => none

def annClass (b : Body) (i : Nat) : Option AnnClass :=
  match byte b i with
  | 0 => some .closing | 1 => some .routine | _ => none

def shutterKind (b : Body) (i : Nat) : Option ShutterKind :=
  match byte b i with
  | 0 => some .fire | 1 => some .grille | _ => none

def stampMode (b : Body) (i : Nat) : Option StampMode :=
  match byte b i with
  | 0 => some .first | 1 => some .last | _ => none

/-- `x` lies from `lo` to `hi`. -/
def within (lo hi x : Nat) : Bool := decide (lo ≤ x) && decide (x ≤ hi)

/-! ### The steps of a programme (R164, log 3): each an offset byte, an action byte and the action's parameters -/

/-- The length of the parameters of an action code; an unknown code has none. -/
def paramLength (action : Nat) : Nat :=
  match action with
  | 0 => 2 | 1 => 7 | 3 => 2 | _ => 0

/-- The action of a code with its parameters, none when one is out of range. -/
def action (params : Body) : Nat → Option Action
  | 0 => (fin 16 params 0).map fun s => .announce s (set8 params 1)
  | 1 =>
    match bellCode params 0, lines params 4 with
    | some c, some l =>
      if l ≠ 0 ∧ within 1 9 (byte params 6) then some (.bell c l (byte params 6)) else none
    | _, _ => none
  | 2 => some .sweep
  | 3 => if set16 params 0 ≠ 0 then some (.grilles (set16 params 0)) else none
  | 4 => some .night
  | _ => none

/-- A step from its offset (one byte in two's complement, log 48), its action code and its parameters. -/
def step (offset : Int) (code : Nat) (params : Body) : Option Step :=
  if -120 ≤ offset ∧ offset ≤ 60 then (action params code).map fun a => ⟨offset, a⟩ else none

/-- `n` steps that take up the whole of a body: none when the body is not of that form, else each step or none where
it is out of range (R164, R183, log 48). -/
def steps : Nat → Body → Option (List (Option Step))
  | 0, b => if b.isEmpty then some [] else none
  | n + 1, b =>
    let code := byte b 1
    let k := paramLength code
    if b.length < 2 + k then none
    else (steps n (b.drop (2 + k))).map fun rest => step (signed b 0) code ((b.drop 2).take k) :: rest

end Body

end Sys2Proof.Machine
end

