-- ==== Sys2Proof/Machine/Flags.lean ====
section
/-! DEFINITION. What the blocks read of one another: the drive demand (R40), the clear-landings set (R33), the shutter
summaries (R70), the zone sets (R96), the supply permissions and requests (R18, R69, R124, R138), and the output
lines (R40, R69, R107, R138, R143). All are functions of the state; none is a second copy of it. -/
namespace Sys2Proof.Machine

/-- The drive demand of a paternoster state (R40). -/
def PnState.demand : PnState → Demand
  | .starting | .running | .sweeping => .service
  | .creeping | .survey => .creep
  | .halted | .settling | .held | .estop | .lockedOut | .nightLock | .powerStop => .off

/-! ## Chain positions (5.2) -/

/-- The distance ahead from `a` to `b` on a loop of `l` steps. -/
def distAhead (l a b : Nat) : Nat := (b + l - a) % l

/-- The circular distance of `a` and `b`. -/
def circDist (l a b : Nat) : Nat := min (distAhead l a b) (distAhead l b a)

/-! ## Sets of a shutter -/

/-- The shutter's fault set holds the kind. -/
def Shutter.has (s : Shutter) (kind : BitVec 8) : Bool := s.faults &&& kind != 0

/-- The shutter is landing-linked. -/
def Shutter.linked (s : Shutter) : Bool := s.landing.isSome

/-- DESCENDING, RAISING or OBSTRUCTED: what closes the gate of a linked shutter (R70). -/
def ShutterState.barring : ShutterState → Bool
  | .descending | .raising | .obstructed => true
  | _ => false

namespace Store

/-- DRV_DEM1:0 follows the paternoster state (R40). -/
def demand (s : Store) : Demand := s.pnc.state.demand

/-- The drive demand is OFF. -/
def demandOff (s : Store) : Bool := s.demand == .off

/-! ### The clear-landings set (R33) -/

/-- The clear-list entry within the level tolerance of a position. -/
def entryAt (s : Store) (p : Nat) : Option ClearEntry :=
  s.cht.clearList.find? fun e => decide (circDist s.cht.settings.loopLength p e.pos ≤ s.cht.settings.levelTol)

/-- The clear-landings set at this moment (R33). -/
def clearNow (s : Store) : BitVec 8 :=
  if s.demandOff && s.cht.settled then
    match s.cht.position with
    | some p => ((s.entryAt p).map ClearEntry.set).getD 0
    | none => 0
  else 0

/-- The linked landing of a shutter is in the clear-landings set; an unlinked shutter needs none. -/
def landingClear (s : Store) (sh : Shutter) : Bool :=
  match sh.landing with
  | none => true
  | some l => s.clearNow.getLsbD l.val

/-! ### Shutter summaries (R70) -/

/-- Some present shutter satisfies `p`. -/
def someShutter (s : Store) (p : Shutter → Bool) : Bool := anyOf s.shc.stations fun o => o.any p

/-- The shutter gate: no landing-linked shutter is DESCENDING, RAISING or OBSTRUCTED (R41, R70). A linked grille left
HALTED_PART does not close it, whatever R78 says of the gate (log 40). -/
def gateOpen (s : Store) : Bool := !s.someShutter fun sh => sh.linked && sh.state.barring

/-- Every present landing-linked shutter is OPEN (R70). -/
def allLinkedOpen (s : Store) : Bool := !s.someShutter fun sh => sh.linked && sh.state != .opened

/-- Every present shutter with the night flag is CLOSED (R70). -/
def nightClosed (s : Store) : Bool := !s.someShutter fun sh => sh.night && sh.state != .closed

/-- The pending set P: the linked landings of the shutters in RELEASE_WAIT (R41, R70). -/
def pendingSet (s : Store) : BitVec 8 :=
  setOf 8 fun l => s.someShutter fun sh => sh.state == .releaseWait && sh.landing == some l

/-- The stations in RELEASE_WAIT (R70). -/
def releaseWaitSet (s : Store) : BitVec 16 :=
  setOf 16 fun i => s.shc.stations[i].any fun sh => sh.state == .releaseWait

/-! ### Zones (R89, R96) -/

def alarmed (s : Store) : BitVec 6 := setOf 6 fun z => s.fzu.zones[z].state == .alarmed
def standing (s : Store) : BitVec 6 := setOf 6 fun z => s.fzu.zones[z].state == .standing

/-- Some zone is in fire: what the fire condition follows (R96). -/
def anyInFire (s : Store) : Bool := anyOf s.fzu.zones fun z => z.state != .quiet

/-- The zone of a shutter is ALARMED or STANDING. -/
def zoneInFire (s : Store) (sh : Shutter) : Bool :=
  match sh.zone with
  | none => false
  | some z => s.fzu.zones[z].state != .quiet

/-! ### Supply permissions (R18) -/

def onReserve (s : Store) : Bool := s.msu.source == .reserve

/-- The ordinary use of BELL_PWR is permitted. -/
def bellPermitted (s : Store) : Bool := !s.onReserve || s.msu.bellPermit

/-- The ordinary use of AMP_EN is permitted. -/
def ampPermitted (s : Store) : Bool := !s.onReserve || s.msu.announcePermit

/-- A grille may drive down. -/
def downPermitted (s : Store) : Bool := !s.onReserve || s.msu.grillePermit

/-- A grille may drive up: under fire, or by order. -/
def upPermitted (s : Store) (underFire : Bool) : Bool :=
  !s.onReserve || (!s.msu.batteryLow && (underFire || s.msu.grillePermit))

/-- A fire shutter may be raised: not on RESERVE with the battery-low flag set, nor on RESERVE after the reserve-hold
timer has expired (R82). -/
def fireRaisePermitted (s : Store) : Bool := !(s.onReserve && (s.msu.batteryLow || s.fzu.hold == .expired))

/-- The supply use of a moving grille is permitted (R18, R77). -/
def grilleUsePermitted (s : Store) (sh : Shutter) : Bool :=
  match sh.state with
  | .descending => s.downPermitted
  | .raising => s.upPermitted sh.upFire
  | _ => true

/-! ### Supply requests and outputs (R18, R69, R124, R138) -/

/-- Some ringer holds something that satisfies `p`. -/
def someRinging (s : Store) (p : Ringing → Bool) : Bool := anyOf s.blx.ringers fun r => r.held.any p

end Store

/-- The call is served by the priority use of BELL_PWR (R124): URGENT, WATCH or a standing call. -/
def Ringing.priority : Ringing → Bool
  | .ordinary c => c.cls == .urgent || c.cls == .watch
  | .evac => true
  | .alert => true

/-- A moving grille requests GRILLE_PWR (R69). -/
def Shutter.requests (sh : Shutter) : Bool :=
  sh.kind == .grille && (sh.state == .descending || sh.state == .raising)

/-- OUT_A of a station in a state (R69): the magnet of a fire shutter, the down drive of a grille. -/
def Shutter.outA (sh : Shutter) : Bool :=
  match sh.kind, sh.state with
  | .fire, .opened | .fire, .releaseWait | .fire, .obstructed | .fire, .raising => true
  | .grille, .descending => true
  | _, _ => false

/-- OUT_B of a station in a state (R69): the winder of a fire shutter, the up drive of a grille. -/
def Shutter.outB (sh : Shutter) : Bool := sh.state == .raising

/-- The lines a ringer drives on (R107). -/
def Ringer.driven (r : Ringer) : BitVec 10 := if r.state = .striking ∧ r.stroke.on then r.lines else 0

namespace Phs

/-- The start of a slot: the sum of the lengths below it (R128). -/
def start (p : Phs) (k : Nat) : Nat := ((p.slots.toList.take k).map Slot.length).sum

/-- The sum of all lengths (R128). -/
def total (p : Phs) : Nat := (p.slots.toList.map Slot.length).sum

/-- The free count (R128). -/
def free (p : Phs) : Nat := Config.storageBlocks - p.total

end Phs

/-- The state of a slot (R129). -/
def Slot.state (s : Slot) : SlotState :=
  if s.length = 0 then .empty
  else if s.loaded.length = 0 then .declared
  else if s.loaded.length < s.length then .loading
  else if s.computed = some s.check then .ready else .faulty

namespace Phs

/-- The slot is READY (R129). -/
def ready (p : Phs) (k : Fin 64) : Bool := p.slots[k].state == .ready

/-- The 128 bytes of block `i` of slot `k` (R136). -/
def block (p : Phs) (k : Fin 64) (i : Nat) : List Byte :=
  Memory.readAll p.storage ((p.start k.val + i) * Config.blockBytes) Config.blockBytes

end Phs

/-- The output lines of a state (R18, R40, R69, R107, R138, R143). -/
def outputs (s : Store) (phs : Phs) : Out where
  demand := s.demand
  outA := setOf 16 fun i => s.shc.stations[i].any Shutter.outA
  outB := setOf 16 fun i => s.shc.stations[i].any Shutter.outB
  bells := (List.finRange 3).foldl (fun b r => b ||| s.blx.ringers[r].driven) 0
  bellPwr := s.someRinging Ringing.priority || (s.bellPermitted && s.someRinging fun _ => true)
  ampEn := s.anp.state != .idle && (s.anp.fire || s.ampPermitted)
  grillePwr := s.someShutter fun sh => sh.requests && s.grilleUsePermitted sh
  spk := if s.anp.state = .idle then 0 else if s.anp.fire then 0xFF else (s.anp.playing.map Announcement.speakers).getD 0
  audio :=
    match s.anp.state, s.anp.sounding with
    | .sounding, some k => phs.block k s.anp.cursor.block
    | _, _ => [Config.midScale]

end Sys2Proof.Machine
end

