-- ==== Sys2Proof/Machine/Run.lean ====
section
/-! DEFINITION. The run record of the Closing Programme Unit (R163): recording what became of a step (R167), the end
of a claimed sweep handed back (R51, R169), and the end of a run (R172, R173). -/
namespace Sys2Proof.Machine

/-- The due instant of a step: the closing time used plus its offset (R163). -/
def Run.due (run : Run) (st : Step) : Int := run.closing + st.offset * 6000

/-- A step that is still to come to an end: PENDING, DEFERRED or WAITING (R173). -/
def StepOutcome.openEnded : StepOutcome → Bool
  | .pending | .deferred | .waiting => true
  | _ => false

namespace Cpu

/-- The indices of the steps of the run that satisfy `p`, in programme order. -/
def stepsWhere (c : Cpu) (p : Action → StepOutcome → Bool) : List Nat :=
  match c.run with
  | none => []
  | some run => (List.range c.programme.length).filter fun i =>
    match c.programme[i]?, run.steps[i]? with
    | some st, some r => p st.action r.outcome
    | _, _ => false

/-- Some step of the run is outstanding: DEFERRED, or WAITING for an action other than the night itself (R163, R172). -/
def outstanding (c : Cpu) : Bool :=
  !(c.stepsWhere fun a o => o == .deferred || (o == .waiting && a != .night)).isEmpty

/-- The NIGHT step is WAITING (R172). -/
def nightWaiting (c : Cpu) : Bool := !(c.stepsWhere fun a o => a == .night && o == .waiting).isEmpty

end Cpu

namespace Ev

/-- Record a step's outcome, with the N-STEP of R167. -/
def recordStep (i : Nat) (r : StepRecord) (e : Ev) : Ev :=
  match e.cpu.run, e.cpu.programme[i]? with
  | some run, some st =>
    (e.setCpu fun c => { c with run := some { run with steps := run.steps.set i r } }).notice
      (.step i st.action (run.due st) r)
  | _, _ => e

/-- The end of a sweep, handed back to the Closing Programme Unit when that unit claimed it (R51): the reason `none`
for reaching NIGHT_LOCK, else the reason of the failed end (R169). -/
def handBackSweep (r : Reason) (e : Ev) : Ev :=
  if e.pnc.sweepClaimed then
    let e := e.setPnc fun p => { p with sweepClaimed := false }
    e.forEach (e.cpu.stepsWhere fun a o => a == .sweep && o == .waiting)
      (fun i => recordStep i ⟨if r = .none then .done else .failed, r, []⟩)
  else e

/-- Every step still PENDING, DEFERRED or WAITING becomes DROPPED (R173); a GRILLES step among them has made no claims
and keeps an empty list of results (log 60). -/
def dropSteps (e : Ev) : Ev :=
  e.forEach (e.cpu.stepsWhere fun _ o => o.openEnded) (fun i => recordStep i ⟨.dropped, .none, []⟩)

/-- The run ends and its record becomes the previous run (R173). -/
def endRun (cause : EndCause) (e : Ev) : Ev :=
  match e.cpu.run with
  | some run => e.setCpu fun c => { c with run := none, prev := some (run, cause) }
  | none => e

end Ev

end Sys2Proof.Machine
end

