-- ==== Sys2Proof/Machine/Chain.lean ====
section
/-! DEFINITION. The Chain Tracker (02): surveyed landings, the clear list (R31), and the survey's records (R34-R38).
Its field events come after Paternoster Control, in Sys2Proof/Machine/Motion.lean. -/
namespace Sys2Proof.Machine

namespace Cht

/-- A landing is surveyed when it is present and both its lists hold N entries (R26). While N is unset no landing is
(log 38). -/
def surveyed (c : Cht) (l : Landing) : Bool :=
  l.present && decide (l.up.length = c.settings.cars) && decide (l.down.length = c.settings.cars) &&
    decide (0 < c.settings.cars)

/-- Some entry of a list lies within the level tolerance of a position (5.2). -/
def near (c : Cht) (list : List Nat) (p : Nat) : Bool :=
  list.any fun q => decide (circDist c.settings.loopLength q p ≤ c.settings.levelTol)

/-- The clear set of a candidate position: the surveyed landings level on both sides (R31 step 2). -/
def clearSetAt (c : Cht) (p : Nat) : BitVec 8 :=
  setOf 8 fun i => let l := c.landings[i]; c.surveyed l && c.near l.up p && c.near l.down p

/-- The candidates with a non-empty clear set (R31 steps 1 to 3). -/
def candidates (c : Cht) : List ClearEntry :=
  let ps := c.landings.toList.flatMap fun l => if c.surveyed l then l.up ++ l.down else []
  (ps.map fun p => ⟨p, c.clearSetAt p⟩).filter fun e => e.set != 0

/-- Entries in the order of the walk: the larger clear set first, then the lower position (R31 step 4, R32). -/
def inOrder (es : List ClearEntry) : List ClearEntry :=
  sortBy (fun e => -(card e.set : Int)) (sortBy (fun e => (e.pos : Int)) es)

/-- The walk keeps a candidate more than 2t from every entry kept, up to 16 (R31 step 5). -/
def keep (c : Cht) (kept : List ClearEntry) (e : ClearEntry) : List ClearEntry :=
  if kept.length < 16 ∧
      (kept.all fun k => decide (2 * c.settings.levelTol < circDist c.settings.loopLength e.pos k.pos)) then
    kept ++ [e]
  else kept

/-- The clear list derived from the landing table (R31). -/
def derive (c : Cht) : List ClearEntry :=
  sortBy (fun e => (e.pos : Int)) ((inOrder c.candidates).foldl c.keep [])

/-- The best rest position (R32). -/
def bestRest (c : Cht) : Option ClearEntry := (inOrder c.clearList).head?

/-- At least one landing is present. -/
def someLanding (c : Cht) : Bool := anyOf c.landings Landing.present

end Cht

/-- A survey in INDEX_WAIT with empty working lists (R34). -/
def Survey.start : Survey where
  recording := false
  up := Vector.replicate 8 ⟨0, []⟩
  down := Vector.replicate 8 ⟨0, []⟩

namespace Survey

/-- The edge counts and working list of one side. -/
def sideCount (s : Survey) (l : Fin 8) : Side → SideCount
  | .up => s.up[l]
  | .down => s.down[l]

/-- One more sill edge at a position on a side (R35). -/
def edge (s : Survey) (l : Fin 8) (side : Side) (p : Nat) : Survey :=
  let c := s.sideCount l side
  let c' : SideCount := ⟨c.count + 1, insertAscending p c.list⟩
  match side with
  | .up => { s with up := put s.up l c' }
  | .down => { s with down := put s.down l c' }

/-- Every side of every present landing has counted N edges at N positions (R36). -/
def succeeds (s : Survey) (c : Cht) : Bool :=
  (List.finRange 8).all fun l => !c.landings[l].present ||
    ([Side.up, Side.down].all fun side =>
      decide ((s.sideCount l side).count = c.settings.cars) &&
        decide ((s.sideCount l side).list.length = c.settings.cars))

/-- The landing table with the working lists in place of the sill lists of the present landings (R36). -/
def commit (s : Survey) (ls : Vector Landing 8) : Vector Landing 8 :=
  (List.finRange 8).foldl
    (fun v l => if v[l].present then put v l ⟨true, s.up[l].list, s.down[l].list⟩ else v) ls

/-- The edge counts of each present landing, as N-SURVEY-END reports a failure (R38). -/
def counts (s : Survey) (c : Cht) : List (Fin 8 × Nat × Nat) :=
  ((List.finRange 8).filter fun l => c.landings[l].present).map fun l => (l, s.up[l].count, s.down[l].count)

end Survey

/-- The final answer of a survey's end (R38). -/
def SurveyResult.outcome : SurveyResult → Outcome × Reason
  | .done _ => (.done, .none)
  | .failed _ => (.ended, .sillCount)
  | .abandoned _ => (.ended, .abandoned)

namespace Ev

/-- The survey is over: its records are discarded, its timer stops, and its end is reported (R37, R38). -/
def closeSurvey (r : SurveyResult) (e : Ev) : Ev :=
  ((e.setCht fun c => { c with survey := none, surveyTimer := none }).notice (.surveyEnd r)).ended .survey
    r.outcome.1 r.outcome.2 []

/-- A survey in progress is abandoned (R37); without one nothing happens. -/
def abandonSurvey (cause : AbandonCause) (e : Ev) : Ev :=
  e.when e.cht.survey.isSome (closeSurvey (.abandoned cause))

end Ev

end Sys2Proof.Machine
end

