-- ==== Sys2Proof/Machine/Pater.lean ====
section
/-! DEFINITION. Paternoster Control (03): the choice of a stopping target (R42), stops and settles (R46-R49), the ends of
a sweep (R51), emergency stops (R53), power stops (R57, R58), and the fire demand (R59-R62). -/
namespace Sys2Proof.Machine

/-! ## Choosing a target (R42) -/

namespace Store

/-- The run-in distance of an entry from a position (R42). -/
def runIn (s : Store) (p : Nat) (e : ClearEntry) : Nat :=
  let d := distAhead s.cht.settings.loopLength p e.pos
  if s.cht.settings.stopLead < d then d else d + s.cht.settings.loopLength

/-- The nearest rule: the entry with the smallest run-in distance. -/
def nearest (s : Store) (p : Nat) : Option Nat := (argMin (s.runIn p) s.cht.clearList).map ClearEntry.pos

/-- The sweep rule: the best rest position (R32). -/
def sweepTarget (s : Store) : Option Nat := s.cht.bestRest.map ClearEntry.pos

/-- The sweep re-target rule: the smallest run-in distance among the entries that serve as many landings as the best
rest position. -/
def sweepRetarget (s : Store) (p : Nat) : Option Nat :=
  match s.cht.bestRest with
  | none => none
  | some best =>
    (argMin (s.runIn p) (s.cht.clearList.filter fun e => card e.set == card best.set)).map ClearEntry.pos

/-- The fire rule: the most landings in common with P, ties to the smallest run-in distance; no target when the best
intersection is empty. -/
def fireTarget (s : Store) (p : Nat) : Option Nat :=
  let pending := s.pendingSet
  let common (e : ClearEntry) : Nat := card (e.set &&& pending)
  ((argMin (fun e => (8 - common e) * 65536 + s.runIn p e) s.cht.clearList).filter fun e => common e != 0).map
    ClearEntry.pos

/-- What the re-target rule of a stop's purpose chooses (R49). -/
def retarget (s : Store) (p : Nat) : Option Nat :=
  match s.pnc.purpose with
  | .normal => s.nearest p
  | .sweep => s.sweepRetarget p
  | .fire => s.fireTarget p

/-- The state a stop ends in for HALTED: NIGHT_LOCK while the store mode is NIGHT (R52). -/
def haltState (s : Store) : PnState := if s.msu.mode = .night then .nightLock else .halted

end Store

/-! ## Cause inputs (R41) and the cause set (R39) -/

namespace Ev

/-- The landings whose CORD (or GUARD) counts as active: line active, landing present (R41). -/
def presentLandings (e : Ev) : BitVec 8 := setOf 8 fun l => e.cht.landings[l].present

def activeCords (e : Ev) : BitVec 8 := e.lines.cords &&& e.presentLandings
def activeGuards (e : Ev) : BitVec 8 := e.lines.guards &&& e.presentLandings

/-- Some cause input is active (R41). -/
def causeActive (e : Ev) : Bool := e.activeCords != 0 || e.activeGuards != 0 || e.lines.drvFault

/-- The cause set with a cause for each active input (R58, R65). -/
def activeCauses (e : Ev) : CauseSet :=
  { CauseSet.empty with cord := e.activeCords, guard := e.activeGuards, driveFault := e.lines.drvFault }

/-- The entering cause among the active inputs: the lowest landing's CORD, else GUARD, else DRIVE_FAULT (R58). -/
def firstCause (e : Ev) : Cause :=
  match (List.finRange 8).find? fun l => e.activeCords.getLsbD l.val with
  | some l => .cord l
  | none =>
    match (List.finRange 8).find? fun l => e.activeGuards.getLsbD l.val with
    | some l => .guard l
    | none => .driveFault

end Ev

namespace CauseSet

/-- The set holds the cause. -/
def mem (c : CauseSet) : Cause → Bool
  | .cord l => c.cord.getLsbD l.val
  | .guard l => c.guard.getLsbD l.val
  | .driveFault => c.driveFault
  | .chainSlip => c.chainSlip
  | .sillMismatch l => c.sillMismatch.getLsbD l.val
  | .creepTimeout => c.creepTimeout
  | .stopMissed => c.stopMissed
  | .clearance => c.clearance
  | .shutterMoved s => c.shutterMoved.getLsbD s.val
  | .host => c.host

/-- The set with the cause. -/
def add (c : CauseSet) : Cause → CauseSet
  | .cord l => { c with cord := adjoin c.cord l.val }
  | .guard l => { c with guard := adjoin c.guard l.val }
  | .driveFault => { c with driveFault := true }
  | .chainSlip => { c with chainSlip := true }
  | .sillMismatch l => { c with sillMismatch := adjoin c.sillMismatch l.val }
  | .creepTimeout => { c with creepTimeout := true }
  | .stopMissed => { c with stopMissed := true }
  | .clearance => { c with clearance := true }
  | .shutterMoved s => { c with shutterMoved := adjoin c.shutterMoved s.val }
  | .host => { c with host := true }

end CauseSet

namespace Ev

/-! ## Changes of state -/

/-- CREEPING toward a target, or for the index with none; the creep timer starts at so many seconds (R47, R61). -/
def creep (target : Option Nat) (seconds : Nat) (e : Ev) : Ev :=
  e.setPnc fun p => { p with state := .creeping, target := target, creepPending := false, startTimer := none, creepTimer := e.timer (seconds * 100) }

/-- CREEPING toward a chosen entry, with the creep timeout (R47). -/
def creepTo (t : Nat) (e : Ev) : Ev := e.creep (some t) e.cht.settings.creepTimeout

/-- CREEPING for the index, with four times the creep timeout (R61). -/
def creepForIndex (e : Ev) : Ev := e.creep none (4 * e.cht.settings.creepTimeout)

/-- SETTLING with no target (R46, R59). -/
def settle (e : Ev) : Ev :=
  e.setPnc fun p => { p with state := .settling, target := none, startTimer := none, creepTimer := none }

/-- The stop's purpose and a miss count of 0: a new stop begins (R46, R49, R59). -/
def newStop (purpose : Purpose) (e : Ev) : Ev := e.setPnc fun p => { p with purpose := purpose, missCount := 0 }

/-- At rest in a state with no target, the timers stopped, the miss count 0 and the creep pending flag clear. -/
def restIn (st : PnState) (e : Ev) : Ev :=
  e.setPnc fun p => { p with state := st, target := none, missCount := 0, creepPending := false, startTimer := none, creepTimer := none }

/-- The end of a sweep before NIGHT_LOCK, to its held answer and to the Closing Programme Unit (R51, R63). -/
def failSweep (r : Reason) (e : Ev) : Ev := (e.ended .pnSweep .ended r []).handBackSweep r

/-- The ends of every operation of the paternoster under way (R63): start, stop and sweep. -/
def failAll (r : Reason) (e : Ev) : Ev := ((e.ended .pnStart .ended r []).ended .pnStop .ended r []).failSweep r

/-- A stop ends in HALTED: NIGHT_LOCK in NIGHT (R52). A held PN-STOP is DONE (R63). -/
def halt (e : Ev) : Ev := (e.restIn e.haltState).ended .pnStop .done .none []

/-- A stop ends in HELD; a held PN-STOP ends with FIRE (R63). The evaluation of R60 follows in the same event. -/
def hold (e : Ev) : Ev := (e.restIn .held).ended .pnStop .ended .fire []

/-- A sweep or normal stop comes to HALTED; a sweep that does so has failed (R49, R51, log 19). -/
def haltAfter (e : Ev) : Ev := (e.when (e.pnc.purpose == .sweep) (failSweep .fault)).halt

/-- The sweep ends in NIGHT_LOCK (R48, R51, R63). -/
def lockAfterSweep (e : Ev) : Ev := ((e.restIn .nightLock).ended .pnSweep .done .none []).handBackSweep .none

/-! ## Emergency stops (R53) -/

/-- Entry to ESTOP from a state that can be left for it. -/
def enterEstop (c : Cause) (e : Ev) : Ev :=
  let e := (e.abandonSurvey .estop).failAll .fault
  let e := (e.restIn .estop).setPnc fun p => { p with causes := CauseSet.empty.add c }
  { e.stamp stampEstop c.detail with pnCause := some c }

/-- An emergency-stop claim or cause input (R53): entry to ESTOP, one more cause in ESTOP, nothing in LOCKED_OUT and
POWER_STOP. -/
def estop (c : Cause) (e : Ev) : Ev :=
  match e.pnc.state with
  | .lockedOut | .powerStop => e
  | .estop =>
    if e.pnc.causes.mem c then e
    else
      let e := e.setPnc fun p => { p with causes := p.causes.add c }
      e.notice (.pnStopped .estop .estop (some c) e.pnc.causes e.pnc.startFaults)
  | _ => e.enterEstop c

/-! ## The settle judgement (R48, R49) -/

/-- The settle with no target. -/
def settledBare (e : Ev) : Ev := if e.pnc.purpose = .fire then e.hold else e.haltAfter

/-- The settled position lies within the level tolerance of the target. -/
def settledHit (e : Ev) : Ev :=
  match e.pnc.purpose with
  | .normal => e.halt
  | .sweep => e.lockAfterSweep
  | .fire => e.hold

/-- A first miss with the gate open: a new target, or none (R49). With an empty clear list there is none, and a sweep
fails with FAULT (log 19). -/
def missAgain (e : Ev) : Ev :=
  match e.cht.position.bind e.retarget with
  | some t => (e.setPnc fun p => { p with missCount := 1 }).creepTo t
  | none => e.settledBare

/-- A miss (R49). -/
def settledMiss (e : Ev) : Ev :=
  if e.pnc.missCount ≠ 0 then e.estop .stopMissed
  else if e.gateOpen then e.missAgain
  else e.settledBare

/-- The rest is judged when SETTLING finds the chain settled (R48). A target held while the position has become unknown
(a CHAIN-SET in SETTLING) is judged a miss: the spec gives no judgement (log 36). -/
def judge (e : Ev) : Ev :=
  match e.pnc.target with
  | none => e.settledBare
  | some t =>
    match e.cht.position with
    | some p =>
      if circDist e.cht.settings.loopLength p t ≤ e.cht.settings.levelTol then e.settledHit else e.settledMiss
    | none => e.settledMiss

/-! ## The survey (R45) -/

/-- The tracker's end-of-survey claim (R45). -/
def endSurveyClaim (e : Ev) : Ev := e.when (e.pnc.state == .survey) fun e => (e.newStop .normal).settle

/-! ## Power (R57, R58) -/

/-- A change to RESERVE (R57). -/
def powerStop (e : Ev) : Ev :=
  match e.pnc.state with
  | .lockedOut | .nightLock | .estop | .powerStop => e
  | _ => ((e.abandonSurvey .power).failAll .power).restIn .powerStop

/-- ESTOP with a cause for each active input, the stamp and the notice made once (R58, R65). -/
def estopByInputs (e : Ev) : Ev :=
  let c := e.firstCause
  let e := (e.restIn .estop).setPnc fun p => { p with causes := e.activeCauses }
  { e.stamp stampEstop c.detail with pnCause := some c }

/-- A change to MAINS (R58). -/
def powerReturn (e : Ev) : Ev :=
  e.when (e.pnc.state == .powerStop) fun e =>
    if e.causeActive then e.estopByInputs else e.restIn e.haltState

/-! ## The fire demand (R59-R62) -/

/-- The creep or settle a moving state takes for the fire (R59): by the fire rule, or for the index. -/
def fireCreep (e : Ev) : Ev :=
  let e := e.newStop .fire
  match e.cht.position with
  | none => e.creepForIndex
  | some p =>
    match e.fireTarget p with
    | some t => e.creepTo t
    | none => e.settle

/-- The fire condition becomes ACTIVE (R59). HALTED is left to the evaluation of R60, later in the event. In SETTLING the
miss count becomes 0 with the new stop (R49, log 37). -/
def fireDemand (e : Ev) : Ev :=
  match e.pnc.state with
  | .running | .sweeping | .starting | .creeping | .survey =>
    (((e.abandonSurvey .fire).ended .pnStart .ended .fire []).failSweep .fire).fireCreep
  | .settling =>
    (e.failSweep .fire).setPnc fun p => { p with purpose := .fire, target := none, missCount := 0 }
  | _ => e

/-- A change of P in a SETTLING for which no fire target has been chosen (R59). -/
def chooseAgain (e : Ev) : Ev :=
  match e.cht.position.bind e.fireTarget with
  | some t => if e.gateOpen then e.creepTo t else e
  | none => e

/-- HELD, with or without the creep pending flag (R60). -/
def holdPending (pending : Bool) (e : Ev) : Ev := (e.restIn .held).setPnc fun p => { p with creepPending := pending }

/-- The evaluation of a paternoster at rest under fire (R60). -/
def evaluateRest (e : Ev) : Ev :=
  let p := e.pendingSet
  if p = 0 ∨ p &&& e.clearNow ≠ 0 then e.holdPending false
  else if !e.gateOpen then e.holdPending true
  else if !e.lines.drvReady || e.onReserve then e.holdPending false
  else
    match e.cht.position with
    | none => (e.newStop .fire).creepForIndex
    | some pos =>
      match e.fireTarget pos with
      | some t => (e.newStop .fire).creepTo t
      | none => e.holdPending false

/-- The position becomes known while creeping for the index (R61). -/
def indexFound (e : Ev) : Ev :=
  match e.cht.position.bind e.fireTarget with
  | some t => e.creepTo t
  | none => e.settle

/-- The fire condition becomes NONE (R62). -/
def fireOver (e : Ev) : Ev :=
  match e.pnc.state with
  | .held => e.restIn e.haltState
  | .creeping | .settling =>
    if e.pnc.purpose = .fire then
      let idx := e.pnc.state == .creeping && e.pnc.target.isNone
      (e.setPnc fun p => { p with purpose := .normal }).when idx settle
    else e
  | _ => e

/-! ## The night (R52) -/

/-- An entry to NIGHT finds a HALTED paternoster (R52). -/
def lockIfHalted (e : Ev) : Ev := e.when (e.pnc.state == .halted) (restIn .nightLock)

/-! ## Requests shared by the orders and the closing programme -/

/-- The checks of a sweep, outside NIGHT_LOCK (R50). -/
def sweepChecks (e : Ev) : List (Bool × Reason) :=
  [(e.pnc.state == .halted || e.pnc.state == .running, .state),
   (e.msu.mode == .trading || e.msu.mode == .closing, .mode),
   (!e.fzu.fire, .fire),
   (!e.onReserve, .power),
   (e.cht.position.isSome && !e.cht.clearList.isEmpty, .state),
   (e.lines.drvReady, .notReady),
   (e.allLinkedOpen, .state),
   (!e.causeActive, .state)]

/-- A sweep begins: from RUNNING at once, from HALTED by a start (R50). -/
def beginSweep (claimed : Bool) (e : Ev) : Ev :=
  let e := e.setPnc fun p => { p with purpose := .sweep, sweepClaimed := claimed }
  if e.pnc.state = .running then e.setPnc fun p => { p with state := .sweeping, sweepCount := 0 }
  else e.setPnc fun p => { p with state := .starting, startTimer := e.timer 300 }

/-- PN-SWEEP, or the SWEEP step's claim (R50). -/
def requestSweep (claimed : Bool) (e : Ev) : ClaimResult :=
  if e.pnc.state = .nightLock then
    (if e.msu.mode = .trading ∨ e.msu.mode = .closing then .done else .refused .mode)
  else
    match firstFailure e.sweepChecks with
    | some r => .refused r
    | none => .started (e.beginSweep claimed)

end Ev

end Sys2Proof.Machine
end

