-- ==== Sys2Proof/Machine/Shutter.lean ====
section
/-! DEFINITION. Shutter Control (04): a release (R71), an obstruction and its retry (R72), the ends of a descent and a
raise (R73-R76), supply withdrawals (R77), lost and conflicting limits (R78, R79), close and raise requests (R81, R82),
and the fire, deadline and reserve releases (R84-R87). -/
namespace Sys2Proof.Machine

namespace Shutter

/-- The descent timer stops running and keeps the time run (R66); one that has run out, or never ran, stays stopped
(log 52). -/
def pauseDescent (s : Shutter) (now : Nat) : Shutter :=
  match s.descent with
  | .stopped => s
  | d => { s with descent := .paused (d.ran now) }

/-- The descent timer runs on with the time it had left (R72). One that had run out before the obstruction has none left
and stays stopped, so that no second DESCENT_SLOW comes of it (log 52). -/
def resumeDescent (s : Shutter) (now : Nat) : Shutter :=
  match s.descent with
  | .paused ran => { s with descent := .running now ran }
  | _ => s

/-- Every timer of the shutter stopped, its proving and retry-wait flags clear. -/
def quietTimers (s : Shutter) : Shutter :=
  { s with descent := .stopped, magnetCheck := none, edgeClear := none, raiseTimer := none, proving := false, retryWait := false }

/-- At rest in a state: the timers stop and a supply request is dropped (R73-R77). -/
def restIn (s : Shutter) (st : ShutterState) : Shutter :=
  { s.quietTimers with state := st, upFire := false, fireWait := false, supplyWait := false }

/-- A fire shutter released (R71). A closed limit or an edge that is active already does not end the descent: each acts
when it becomes active (log 58). -/
def released (s : Shutter) (openLim : Bool) (now : Nat) : Shutter :=
  { s.quietTimers with state := .descending, obstr := 0, descent := .running now 0, magnetCheck := if openLim then some (now + 200) else none, proving := (s.state == .opened || s.state == .releaseWait) && openLim }

/-- A fire shutter whose descent has ended in CLOSED: a proving descent writes the proof record and removes NOT_PROVEN
(R73). -/
def descended (s : Shutter) (time : CalTime) (now : Nat) : Shutter :=
  if s.proving then
    { s.restIn .closed with proof := some ⟨time, s.descent.ran now⟩, faults := s.faults &&& ~~~ FaultKind.notProven }
  else s.restIn .closed

/-- A retry of an obstructed fire shutter (R72), its descent timer as `resumeDescent` leaves it (log 52), whatever
its closed limit (log 58). -/
def retried (s : Shutter) (now : Nat) : Shutter :=
  { s.resumeDescent now with state := .descending, retryWait := false, edgeClear := none }

/-- A fire shutter raised (R74): at its open limit already, the raise ends at once. -/
def fireRaised (s : Shutter) (openLim : Bool) (now : Nat) : Shutter :=
  let s := { s.quietTimers with obstr := 0 }
  if openLim then { s with state := .opened } else { s with state := .raising, raiseTimer := some (now + s.raiseTimeout * 100) }

/-- A grille driven down (R75), whatever its closed limit (log 20) and its edge (log 58). -/
def drivenDown (s : Shutter) (now : Nat) : Shutter :=
  { s.restIn .descending with descent := .running now 0 }

/-- A grille driven up, by order or under fire (R76, R86). -/
def drivenUp (s : Shutter) (underFire : Bool) (now : Nat) : Shutter :=
  { s.restIn .raising with raiseTimer := some (now + s.raiseTimeout * 100), upFire := underFire }

/-- The fault set with the kinds of a set. -/
def addFaults (s : Shutter) (kinds : BitVec 8) : Shutter := { s with faults := s.faults ||| kinds }

/-- The fault set without the kinds of a set. -/
def dropFaults (s : Shutter) (kinds : BitVec 8) : Shutter := { s with faults := s.faults &&& ~~~ kinds }

/-- The time left on the descent timer (R68), in 10 ms units (log 46). -/
def descentLeft (s : Shutter) (now : Nat) : Nat :=
  match s.descent with
  | .stopped => 0
  | d => s.descentTimeout * 100 - d.ran now

end Shutter

namespace Ev

def station (i : Fin 16) (e : Ev) : Option Shutter := e.shc.stations[i]

def openLim (i : Fin 16) (e : Ev) : Bool := e.lines.openLim.getLsbD i.val
def closedLim (i : Fin 16) (e : Ev) : Bool := e.lines.closedLim.getLsbD i.val
def edgeActive (i : Fin 16) (e : Ev) : Bool := e.lines.edge.getLsbD i.val

/-- The record of a station, and nothing else. -/
def putStation (i : Fin 16) (s : Option Shutter) (e : Ev) : Ev :=
  e.setShc fun c => { c with stations := put c.stations i s }

/-- A present shutter's new record, with N-SHUTTER-STATE when its state changes (R68). -/
def moveTo (i : Fin 16) (old new : Shutter) (cause : ShutterCause) (e : Ev) : Ev :=
  (e.putStation i (some new)).when (old.state != new.state)
    (notice (.shutterState i (some old.state) new.state cause))

/-- Kinds join a present shutter's fault set, with N-SHUTTER-FAULT for those that were not in it (R80). -/
def addFault (i : Fin 16) (kinds : BitVec 8) (e : Ev) : Ev :=
  match e.station i with
  | none => e
  | some s =>
    let added := kinds &&& ~~~ s.faults
    (e.putStation i (some (s.addFaults kinds))).when (added != 0)
      (notice (.shutterFault i added (s.faults ||| kinds)))

/-- The end of a held SHUTTER-CLOSE of a station (R83). -/
def closeEnds (i : Fin 16) (o : Outcome) (r : Reason) (st : ShutterState) (e : Ev) : Ev :=
  e.ended (.shutterClose i) o r (Enc.byte st.code)

/-- The end of a held SHUTTER-RAISE of a station (R83). -/
def raiseEnds (i : Fin 16) (o : Outcome) (r : Reason) (st : ShutterState) (e : Ev) : Ev :=
  e.ended (.shutterRaise i) o r (Enc.byte st.code)

/-- A moving grille stops in HALTED_PART, and the held answer of its movement ends (R75-R77, R79, R86). -/
def haltGrille (i : Fin 16) (s : Shutter) (cause : ShutterCause) (r : Reason) (e : Ev) : Ev :=
  let e := e.moveTo i s (s.restIn .haltedPart) cause
  match s.state with
  | .descending => e.closeEnds i .ended r .haltedPart
  | .raising => e.raiseEnds i .ended r .haltedPart
  | _ => e

/-- A fire shutter is released (R71). -/
def release (i : Fin 16) (s : Shutter) (cause : ShutterCause) (e : Ev) : Ev :=
  e.moveTo i s (s.released (e.openLim i) e.now) cause

/-- A fire shutter is released with FORCED, which N-FORCED reports (R85). -/
def releaseForced (i : Fin 16) (s : Shutter) (cause : ShutterCause) (e : Ev) : Ev :=
  e.moveTo i s ((s.released (e.openLim i) e.now).addFaults FaultKind.forced) cause

/-- N-FORCED for the stations forced, and the FORCED stamp claim for every cause but DEADLINE (R85). -/
def reportForced (forced : BitVec 16) (cause : ForcedCause) (e : Ev) : Ev :=
  match lowest forced with
  | none => e
  | some i => (e.notice (.forced forced cause)).when (cause != .deadline) (stamp stampForced i)

/-! ## Limits (R73-R76, R78, R79) -/

/-- A fire shutter's descent ends in CLOSED (R73). Where OPEN_LIM is still active, LIMIT_CONFLICT joins (R79). The kind
that joins and the removal of NOT_PROVEN have a notice each, both with the set after the event (R80, log 23). -/
def fireClosed (i : Fin 16) (s : Shutter) (e : Ev) : Ev :=
  let d := s.descended e.tmb.cal e.now
  let new := if e.openLim i then d.addFaults FaultKind.limitConflict else d
  let e := (e.moveTo i s new .limit).when (e.openLim i && !s.has FaultKind.limitConflict)
    (notice (.shutterFault i FaultKind.limitConflict new.faults))
  (e.when (s.proving && s.has FaultKind.notProven) (notice (.shutterFault i 0 new.faults))).closeEnds i .done
    .none .closed

/-- A grille's descent ends in CLOSED; NOT_PROVEN leaves its fault set (R75, R80). -/
def grilleClosed (i : Fin 16) (s : Shutter) (e : Ev) : Ev :=
  let new := (s.restIn .closed).dropFaults FaultKind.notProven
  let e := e.moveTo i s new .limit
  (e.when (s.has FaultKind.notProven) (notice (.shutterFault i 0 new.faults))).closeEnds i .done .none .closed

/-- A raise ends in OPEN (R74, R76). -/
def raiseDone (i : Fin 16) (s : Shutter) (e : Ev) : Ev :=
  (e.moveTo i s (s.restIn .opened) .limit).raiseEnds i .done .none .opened

/-- Both limits active: LIMIT_CONFLICT joins, and a moving grille stops (R79). -/
def limitConflict (i : Fin 16) (e : Ev) : Ev :=
  let e := e.addFault i FaultKind.limitConflict
  match e.station i with
  | some s =>
    if s.kind = .grille ∧ (s.state = .descending ∨ s.state = .raising) then e.haltGrille i s .limit .fault else e
  | none => e

/-- CLOSED_LIM becomes active (R72, R73, R75, R79); one that was active before the descent began has no effect on it (logs
20, 58). -/
def closedLimActive (i : Fin 16) (e : Ev) : Ev :=
  match e.station i with
  | none => e
  | some s =>
    match s.kind, s.state with
    | .fire, .descending | .fire, .obstructed => e.fireClosed i s
    | .grille, .descending => if e.openLim i then e.limitConflict i else e.grilleClosed i s
    | _, _ => e.when (e.openLim i) (limitConflict i)

/-- OPEN_LIM becomes active (R74, R76, R79). -/
def openLimActive (i : Fin 16) (e : Ev) : Ev :=
  let e := e.when (e.closedLim i) (limitConflict i)
  match e.station i with
  | some s => if s.state = .raising then e.raiseDone i s else e
  | none => e

/-- A shutter leaves its open limit without being commanded (R78). -/
def limitLost (i : Fin 16) (s : Shutter) (e : Ev) : Ev :=
  let moving := s.linked && !e.demandOff
  let e := match s.kind with
    | .fire => e.moveTo i s { s.released false e.now with proving := false } .limit
    | .grille => e.moveTo i s (s.restIn .haltedPart) .limit
  (e.addFault i FaultKind.limitLost).when moving (estop (.shutterMoved i))

/-- OPEN_LIM goes inactive (R71, R78). -/
def openLimInactive (i : Fin 16) (e : Ev) : Ev :=
  match e.station i with
  | none => e
  | some s =>
    match s.state with
    | .opened | .releaseWait => e.limitLost i s
    | _ => e.putStation i (some { s with magnetCheck := none })

/-- CLOSED_LIM goes inactive: a CLOSED grille has been forced off its limit (R73, R76). A fire raise that waits goes on
waiting in HALTED_PART (R86). -/
def closedLimInactive (i : Fin 16) (e : Ev) : Ev :=
  match e.station i with
  | some s =>
    if s.kind = .grille ∧ s.state = .closed then e.moveTo i s { s with state := .haltedPart } .limit else e
  | none => e

/-! ## Edges (R72, R75) -/

/-- A fire shutter strikes something in its descent (R72). -/
def obstruct (i : Fin 16) (s : Shutter) (e : Ev) : Ev :=
  let n := s.obstr + 1
  let e := e.moveTo i s { s.pauseDescent e.now with state := .obstructed, obstr := n, proving := false } .edge
  if n = 3 then (e.addFault i FaultKind.obstructedRepeat).closeEnds i .ended .fault .obstructed else e

/-- EDGE becomes active (R72, R75); one that was active before the descent began is no obstruction (log 58). -/
def edgeStruck (i : Fin 16) (e : Ev) : Ev :=
  match e.station i with
  | none => e
  | some s =>
    match s.kind, s.state with
    | .fire, .descending => e.obstruct i s
    | .fire, .obstructed => e.putStation i (some { s with edgeClear := none, retryWait := false })
    | .grille, .descending => e.haltGrille i s .edge .fault
    | _, _ => e

/-- EDGE goes inactive: the edge-clear timer of an obstructed shutter starts (R72). -/
def edgeCleared (i : Fin 16) (e : Ev) : Ev :=
  match e.station i with
  | some s =>
    if s.kind = .fire ∧ s.state = .obstructed ∧ s.obstr < 3 then e.putStation i (some { s with edgeClear := e.timer 500 })
    else e
  | none => e

/-- A retry of the descent (R72). -/
def retry (i : Fin 16) (s : Shutter) (cause : ShutterCause) (e : Ev) : Ev := e.moveTo i s (s.retried e.now) cause

/-! ## Expiries (R71-R76) -/

/-- The edge-clear timer runs out: a retry, with cause EDGE (log 39), or a wait for the demand OFF (R72). -/
def edgeClearOut (i : Fin 16) (e : Ev) : Ev :=
  match e.station i with
  | none => e
  | some s =>
    if s.edgeClear.isSome then
      let s' := { s with edgeClear := none }
      if s.state ≠ .obstructed then e.putStation i (some s')
      else if !s.linked || e.demandOff then e.retry i s .edge
      else e.putStation i (some { s' with retryWait := true })
    else e

/-- The descent timer runs out (R73, R75). -/
def descentOut (i : Fin 16) (e : Ev) : Ev :=
  match e.station i with
  | none => e
  | some s =>
    match s.descent, s.state with
    | .running _ _, .descending =>
      match s.kind with
      | .fire =>
        let e := e.putStation i (some { s with descent := .stopped, proving := false })
        (e.addFault i FaultKind.descentSlow).closeEnds i .ended .fault .descending
      | .grille => (e.haltGrille i s .timeout .fault).addFault i FaultKind.descentSlow
    | _, _ => e

/-- The magnet check runs out (R71). -/
def magnetOut (i : Fin 16) (e : Ev) : Ev :=
  match e.station i with
  | none => e
  | some s =>
    if s.magnetCheck.isSome then
      (e.putStation i (some { s with magnetCheck := none })).when (e.openLim i) (addFault i FaultKind.magnetStuck)
    else e

/-- The raise timer runs out: a fire shutter is released from where it stands, a grille stops (R74, R76). -/
def raiseOut (i : Fin 16) (e : Ev) : Ev :=
  match e.station i with
  | none => e
  | some s =>
    if s.raiseTimer.isSome ∧ s.state = .raising then
      match s.kind with
      | .fire =>
        ((e.release i s .timeout).addFault i FaultKind.raiseSlow).raiseEnds i .ended .fault .descending
      | .grille => (e.haltGrille i s .timeout .fault).addFault i FaultKind.raiseSlow
    else e

/-! ## Fire and reserve (R77, R84-R87) -/

/-- A fire shutter of an alarmed zone under the release claim (R84), and whether it was forced. -/
def claimRelease (z : Fin 6) (i : Fin 16) (r : Ev × BitVec 16) : Ev × BitVec 16 :=
  let (e, forced) := r
  match e.station i with
  | none => r
  | some s =>
    if s.kind = .fire ∧ s.zone = some z then
      match s.state with
      | .opened =>
        if e.landingClear s then (e.release i s .fire, forced)
        else if e.fzu.deadline = .spent then (e.releaseForced i s .fire, adjoin forced i.val)
        else (e.moveTo i s { s with state := .releaseWait } .fire, forced)
      | .raising => ((e.release i s .fire).raiseEnds i .ended .fire .descending, forced)
      | _ => r
    else r

/-- The release claim for a zone just ALARMED (R84). -/
def releaseZone (z : Fin 6) (e : Ev) : Ev :=
  let r := (List.finRange 16).foldl (fun r i => claimRelease z i r) (e, 0)
  r.1.reportForced r.2 .late

/-- A zone becomes QUIET: its waiting shutters return to OPEN (R85), with cause FIRE (log 39). -/
def zoneQuiet (z : Fin 6) (e : Ev) : Ev :=
  e.forEach (List.finRange 16) fun i e =>
    match e.station i with
    | some s => if s.zone = some z ∧ s.state = .releaseWait then e.moveTo i s { s with state := .opened } .fire else e
    | none => e

/-- A shutter in RELEASE_WAIT released at the deadline (R85). -/
def deadlineRelease (e : Ev) : Ev :=
  let waiting := e.releaseWaitSet
  let e := e.forEach (List.finRange 16) fun i e =>
    match e.station i with
    | some s => if s.state = .releaseWait then e.releaseForced i s .deadline else e
    | none => e
  e.reportForced waiting .deadline

/-- A fire shutter under a reserve release (R87), and whether it was forced. -/
def reserveReleaseOne (i : Fin 16) (r : Ev × BitVec 16) : Ev × BitVec 16 :=
  let (e, forced) := r
  match e.station i with
  | none => r
  | some s =>
    if s.kind = .fire ∧ (s.state = .opened ∨ s.state = .releaseWait ∨ s.state = .raising) then
      let raising := s.state == .raising
      let ends := when raising (raiseEnds i .ended .power .descending)
      if e.landingClear s then (ends (e.release i s .reserve), forced)
      else (ends (e.releaseForced i s .reserve), adjoin forced i.val)
    else r

/-- A reserve release: every fire shutter held open or raising falls (R87). -/
def reserveRelease (cause : ForcedCause) (e : Ev) : Ev :=
  let r := (List.finRange 16).foldl (fun r i => reserveReleaseOne i r) (e, 0)
  r.1.reportForced r.2 cause

/-- A grille in CLOSED or HALTED_PART that the fire calls to be raised (R86): a linked one waits for the demand OFF, one
whose fire use is not permitted for that use, and any other is driven up. A grille that was DESCENDING comes here in
HALTED_PART, and waits for a use that is not permitted as one at rest does (log 56). -/
def fireRise (s : Shutter) (e : Ev) : Shutter :=
  if s.linked && !e.demandOff then { s with fireWait := true }
  else if e.upPermitted true then s.drivenUp true e.now
  else { s with fireWait := false, supplyWait := true }

/-- A grille under the fire treatment of R86. An open-on-fire one that is DESCENDING while its fire use is not permitted
is halted, with the supply mark (log 56). -/
def treatGrille (i : Fin 16) (e : Ev) : Ev :=
  match e.station i with
  | none => e
  | some s =>
    if s.kind = .grille then
      if s.openOnFire && e.zoneInFire s then
        match s.state with
        | .descending =>
          let new := e.fireRise (s.restIn .haltedPart)
          (e.moveTo i s new .fire).closeEnds i .ended .fire new.state
        | .closed | .haltedPart => e.moveTo i s (e.fireRise s) .fire
        | _ => e
      else if s.state = .descending then e.haltGrille i s .fire .fire
      else e
    else e

/-- The grille treatment of R86. -/
def treatGrilles (e : Ev) : Ev := e.forEach (List.finRange 16) treatGrille

/-- A moving grille whose supply use is no longer permitted stops (R77); an open-on-fire one of a zone in fire waits for
its fire use to be permitted again (R86). -/
def withdrawGrille (i : Fin 16) (e : Ev) : Ev :=
  match e.station i with
  | none => e
  | some s =>
    if s.requests ∧ e.grilleUsePermitted s = false then
      let e' := e.haltGrille i s .supply .power
      match e'.station i with
      | some s' => e'.putStation i (some { s' with supplyWait := s.openOnFire && e.zoneInFire s && e.fzu.fire })
      | none => e'
    else e

def withdrawGrilles (e : Ev) : Ev := e.forEach (List.finRange 16) withdrawGrille

/-- The fire use of the grilles is permitted again: each that was left for want of supply, its zone still in fire, is to
be raised in this event, or once the demand is OFF (R86). -/
def endSupplyWaits (e : Ev) : Ev :=
  e.forEach (List.finRange 16) fun i e =>
    match e.station i with
    | some s =>
      if s.supplyWait && e.zoneInFire s then e.putStation i (some { s with supplyWait := false, fireWait := true }) else e
    | none => e

/-- The fire is over: no grille waits for a fire raise (R86). -/
def forgetFireWaits (e : Ev) : Ev :=
  e.forEach (List.finRange 16) fun i e =>
    match e.station i with
    | some s =>
      if s.fireWait || s.supplyWait then e.putStation i (some { s with fireWait := false, supplyWait := false }) else e
    | none => e

/-- What a station does of itself when the demand, the clear-landings set or a permission has changed: a waiting
shutter whose landing is clear is released (R85), a waiting retry is made or forgotten (R72), a waiting fire raise is
made (R86). A release and a fire raise carry cause FIRE, a retry cause EDGE (log 39). -/
def settleStation (i : Fin 16) (e : Ev) : Ev :=
  match e.station i with
  | none => e
  | some s =>
    if s.state = .releaseWait ∧ e.landingClear s then e.release i s .fire
    else if s.retryWait && e.demandOff then
      (if e.edgeActive i then e.putStation i (some { s with retryWait := false }) else e.retry i s .edge)
    else if s.kind == .grille && s.fireWait && e.fzu.fire && (s.state == .closed || s.state == .haltedPart) &&
        (!s.linked || e.demandOff) then
      e.moveTo i s (e.fireRise s) .fire
    else e

def settleStations (e : Ev) : Ev := e.forEach (List.finRange 16) settleStation

/-! ## Requests shared by the orders and the closing programme (R81, R83) -/

/-- Both limits of a station are active. -/
def bothLimits (i : Fin 16) (e : Ev) : Bool := e.openLim i && e.closedLim i

/-- The checks of SHUTTER-CLOSE after the station and the CLOSED row (R81). -/
def closeChecks (i : Fin 16) (s : Shutter) (e : Ev) : List (Bool × Reason) :=
  let fire := s.kind == .fire
  [(if fire then s.state != .releaseWait else !e.fzu.fire, .fire),
   (if fire then
      s.state == .opened || (s.state == .obstructed && !e.edgeActive i) ||
        (s.state == .descending && !s.has FaultKind.obstructedRepeat)
    else s.state == .opened || s.state == .haltedPart, .state),
   (fire || !e.bothLimits i, .fault),
   (!s.linked || e.demandOff, .moving),
   (s.state != .opened || e.landingClear s, .notClear),
   (fire || e.downPermitted, .power)]

/-- What an accepted close does (R81). -/
def close (i : Fin 16) (s : Shutter) (cause : ShutterCause) (e : Ev) : Ev :=
  match s.kind, s.state with
  | .fire, .opened => e.release i s cause
  | .fire, .obstructed =>
    e.moveTo i s (({ s with obstr := 0 }.dropFaults FaultKind.obstructedRepeat).retried e.now) cause
  | .fire, _ => e
  | .grille, _ => e.moveTo i s (s.drivenDown e.now) cause

/-- SHUTTER-CLOSE of a present shutter, or the close claim for a grille (R81, R83). -/
def requestClose (i : Fin 16) (s : Shutter) (cause : ShutterCause) (e : Ev) : ClaimResult :=
  if s.state = .closed then .done
  else
    match firstFailure (e.closeChecks i s) with
    | some r => .refused r
    | none => .started (e.close i s cause)

/-- The checks of SHUTTER-RAISE after the station and the OPEN row (R82). -/
def raiseChecks (i : Fin 16) (s : Shutter) (e : Ev) : List (Bool × Reason) :=
  let fire := s.kind == .fire
  [(!(fire && e.zoneInFire s), .fire),
   (if fire then
      s.state == .closed || (s.state == .obstructed && !e.edgeActive i) ||
        (s.state == .descending && (s.has FaultKind.descentSlow || s.has FaultKind.magnetStuck))
    else s.state == .closed || s.state == .haltedPart, .state),
   (!e.bothLimits i, .fault),
   (!s.linked || e.demandOff, .moving),
   (!fire || e.fireRaisePermitted, .power),
   (fire || e.upPermitted (s.openOnFire && e.zoneInFire s && e.fzu.fire), .power)]

/-- What an accepted raise does (R82): a held SHUTTER-CLOSE of the shutter ends with CANCELLED (R83). -/
def raise (i : Fin 16) (s : Shutter) (e : Ev) : Ev :=
  match s.kind with
  | .fire =>
    let new := s.fireRaised (e.openLim i) e.now
    let e := (e.moveTo i s new .order).closeEnds i .ended .cancelled new.state
    e.when (new.state == .opened) (raiseEnds i .done .none .opened)
  | .grille => e.moveTo i s (s.drivenUp (s.openOnFire && e.zoneInFire s && e.fzu.fire) e.now) .order

end Ev

end Sys2Proof.Machine
end

