-- ==== Sys2Proof/Machine/Bells.lean ====
section
/-! DEFINITION. The Bell Exchange (06): assignment (R115), rounds (R116), answers (R117), the ends of a call (R118-R120),
merges and admissions (R111, R112), the standing calls (R121, R122) and the purges (R123). -/
namespace Sys2Proof.Machine

/-- The stroke a code begins with (R107). -/
def Stroke.start (c : BellCode) : Stroke := ⟨c, 0, 0, true⟩

/-- The stroke of a ringer after an on time or an off time ends (R107): on to off, then the next stroke of the group or
the first of the next group. The last off time of a code changes nothing: the code is then complete. -/
def Stroke.next (s : Stroke) : Stroke :=
  if s.on then { s with on := false }
  else if s.stroke + 1 < s.code.getD s.group 0 then { s with stroke := s.stroke + 1, on := true }
  else if s.group + 1 < s.code.length then { s with group := s.group + 1, stroke := 0, on := true }
  else s

/-- EVAC's continuous strokes (R107). -/
def Stroke.toggled (s : Stroke) : Stroke := { s with on := !s.on }

namespace Ringer

/-- A ringer strikes a round of its call's code (R116). -/
def strike (r : Ringer) (code : BellCode) : Ringer :=
  { r with state := .striking, stroke := .start code, timer := none }

/-- A ringer in PAUSING, AWAITING: its lines off (R107, R114). -/
def wait (r : Ringer) (st : RingerState) (t : Timer) : Ringer :=
  { r with state := st, stroke := ⟨[], 0, 0, false⟩, timer := t }

end Ringer

/-- The rank of a class (R110). -/
def CallClass.rank (c : CallClass) : Nat := c.code

namespace Blx

/-- The lines some ringer owns (R114). -/
def owned (b : Blx) : BitVec 10 := (List.finRange 3).foldl (fun l r => l ||| b.ringers[r].lines) 0

/-- The ordinary call a ringer holds. -/
def callOf (b : Blx) (r : Fin 3) : Option Call :=
  match b.ringers[r].held with
  | some (.ordinary c) => some c
  | _ => none

/-- The ordinary calls held by ringers, in ringer order. -/
def heldCalls (b : Blx) : List Call := (List.finRange 3).filterMap b.callOf

/-- The ordinary calls in being (R113). -/
def calls (b : Blx) : List Call := b.queue ++ b.heldCalls

def setRinger (b : Blx) (r : Fin 3) (x : Ringer) : Blx := { b with ringers := put b.ringers r x }

/-- A ringer gives up its call (R114). -/
def giveUp (b : Blx) (r : Fin 3) : Blx := b.setRinger r .idle

/-- The queue with a call at the tail of its class (R110). -/
def join (q : List Call) (c : Call) : List Call :=
  q.filter (fun x => x.cls.rank ≤ c.cls.rank) ++ c :: q.filter (fun x => c.cls.rank < x.cls.rank)

/-- The queue with calls at the heads of their classes, in the order of their admission (R110, R121). -/
def rejoin (q back : List Call) : List Call :=
  let back := sortBy (fun c => (c.seq : Int)) back
  [CallClass.urgent, .watch, .closing, .routine].flatMap fun k =>
    back.filter (fun c => c.cls == k) ++ q.filter (fun c => c.cls == k)

/-! ### Assignment (R115) -/

/-- The first call of a queue whose lines are all free, and the queue without it. -/
def pick (taken : BitVec 10) : List Call → Option (Call × List Call)
  | [] => none
  | c :: q =>
    if c.lines &&& taken = 0 then some (c, q)
    else (pick taken q).map fun r => (r.1, c :: r.2)

/-- An IDLE ringer takes the first call it can serve (R115). -/
def assignOne (b : Blx) (r : Fin 3) : Blx :=
  if b.ringers[r].held.isSome then b
  else
    match pick b.owned b.queue with
    | none => b
    | some (c, q) =>
      let x : Ringer := { Ringer.idle with held := some (.ordinary { c with guard := true }), lines := c.lines }
      { b with queue := q, ringers := put b.ringers r (x.strike c.code) }

/-- Assignment, the lowest-numbered ringer first (R115). -/
def assign (b : Blx) : Blx := (List.finRange 3).foldl assignOne b

/-! ### Standing calls (R121, R122) -/

/-- The ringer that holds a standing call. -/
def standing (b : Blx) (k : Ringing) : Option (Fin 3) := (List.finRange 3).find? fun r => b.ringers[r].held == some k

/-- The ringer a standing call takes: the lowest IDLE one, else that of the lowest-ranked ordinary call, the most
recently admitted of equals (R121). -/
def ringerFor (b : Blx) : Option (Fin 3) :=
  match (List.finRange 3).find? fun r => b.ringers[r].held.isNone with
  | some r => some r
  | none =>
    argMin (fun r => match b.callOf r with
      | some c => (3 - c.cls.rank) * (b.nextSeq + 1) + (b.nextSeq - c.seq)
      | none => 4 * (b.nextSeq + 1)) ((List.finRange 3).filter fun r => (b.callOf r).isSome)

/-- A standing call in being takes its new lines, or ends when they are none (R122). -/
def restand (k : Ringing) (lines : BitVec 10) (b : Blx) : Blx :=
  match b.standing k with
  | some r => if lines = 0 then b.giveUp r else b.setRinger r { b.ringers[r] with lines := lines }
  | none => b

/-- A standing call not in being, whose lines are some, is placed on a ringer with its first stroke (R121). -/
def stand (k : Ringing) (lines : BitVec 10) (first : Stroke) (b : Blx) : Blx :=
  if lines = 0 ∨ (b.standing k).isSome then b
  else
    match b.ringerFor with
    | none => b
    | some r => b.setRinger r { Ringer.idle with state := .striking, held := some k, lines := lines, stroke := first }

/-- A call interrupted by the fire (R121): one more round when none is left. -/
def interrupted (c : Call) : Call := { c with remaining := if c.remaining = 0 then 1 else c.remaining, guard := false }

/-- The standing calls for the lines EVAC and ALERT (R121, R122): an ordinary call whose ringer is taken, or owns a line
of either, rejoins the queue. A standing call that ends does so before the other is placed, so the ringer it frees counts
as IDLE for the placing (log 51). -/
def rebuild (evac alert : BitVec 10) (code : BellCode) (b : Blx) : Blx :=
  let before := b.heldCalls
  let b := restand .alert alert (restand .evac evac b)
  let b := stand .alert alert (.start code) (stand .evac evac ⟨[], 0, 0, true⟩ b)
  let stopped := (List.finRange 3).filter fun r => (b.callOf r).any fun c => c.lines &&& (evac ||| alert) != 0
  let b := stopped.foldl giveUp b
  let left := b.heldCalls
  { b with queue := rejoin b.queue ((before.filter fun c => !left.any fun x => x.number == c.number).map interrupted) }

/-- The standing calls end (R122). -/
def dismiss (b : Blx) : Blx :=
  (List.finRange 3).foldl
    (fun b r => if b.ringers[r].held = some .evac ∨ b.ringers[r].held = some .alert then b.giveUp r else b) b

/-! ### Posts (R111, R112) -/

/-- The existing call a post merges with has the same code, lines and class (R112). -/
def merges (p : Post) (c : Call) : Bool := c.code == p.code && c.lines == p.lines && c.cls == p.cls

/-- A queued call after a merge (R112). -/
def mergedQueued (p : Post) (c : Call) : Call :=
  let n := max c.repeats p.repeats
  { c with repeats := n, remaining := n, wantAnswer := c.wantAnswer || p.wantAnswer }

/-- A held call after a merge (R112). -/
def mergedHeld (p : Post) (c : Call) : Call :=
  let n := max c.repeats p.repeats
  { c with repeats := n, remaining := c.remaining + (n - c.repeats), wantAnswer := c.wantAnswer || p.wantAnswer }

/-- A ringer after a merge with the call it holds: from AWAITING it strikes again when a round has been added (R112). -/
def mergedRinger (p : Post) (c : Call) (r : Ringer) : Ringer :=
  let c' := mergedHeld p c
  let r := { r with held := some (.ordinary c') }
  if r.state = .awaiting ∧ 0 < c'.remaining then r.strike c'.code else r

/-- The call a post merges with, and the exchange after the merge (R112). -/
def merge (p : Post) (b : Blx) : Option (Nat × Blx) :=
  match b.queue.find? (merges p) with
  | some c => some (c.number, { b with queue := b.queue.map fun x => if merges p x then mergedQueued p x else x })
  | none =>
    match (List.finRange 3).find? fun r => (b.callOf r).any (merges p) with
    | none => none
    | some r => (b.callOf r).map fun c => (c.number, b.setRinger r (mergedRinger p c b.ringers[r]))

/-- A post admitted as a new call at the tail of its class, with its number (R109, R110, R111). -/
def enrol (p : Post) (b : Blx) : Nat × Blx :=
  let n := freeNumber (b.calls.map Call.number) 255 b.nextNumber
  let c : Call := { number := n, code := p.code, lines := p.lines, cls := p.cls, repeats := p.repeats, remaining := p.repeats, wantAnswer := p.wantAnswer, escalate := p.escalate, origin := p.origin, heldRef := p.heldRef, guard := false, rounds := 0, seq := b.nextSeq }
  (n, { b with queue := join b.queue c, nextNumber := Sys2Proof.Machine.nextNumber n, nextSeq := b.nextSeq + 1 })

end Blx

/-- The class is admitted in the store mode (R111). -/
def CallClass.admitted (c : CallClass) (m : StoreMode) : Bool :=
  match c, m with
  | .routine, .night => false
  | .routine, _ => true
  | .urgent, _ => true
  | .closing, .trading | .closing, .closing => true
  | .closing, _ => false
  | .watch, .closing | .watch, .night => true
  | .watch, _ => false

namespace Ev

/-- EVAC: the bell lines of the zones in fire, restricted to the present lines (R121). -/
def evacLines (e : Ev) : BitVec 10 :=
  ((List.finRange 6).foldl (fun l z => if e.fzu.zones[z].state = .quiet then l else l ||| e.fzu.zones[z].lines) 0) &&&
    e.blx.present

/-- The standing calls of the zones in fire (R121, R122). -/
def rebuildStanding (e : Ev) : Ev :=
  e.setBlx (Blx.rebuild e.evacLines (e.blx.present &&& ~~~ e.evacLines) e.fzu.alertCode)

/-- The reason and the outcome a call's end gives its held answer (R120). -/
def callAnswer (o : CallOutcome) (line : Option (Fin 10)) (r : Reason) : Outcome × Reason × List Byte :=
  match o with
  | .rung => (.done, .none, [])
  | .answered => (.done, .none, Enc.optByte (line.map Fin.val))
  | .unanswered => (.ended, .unanswered, [])
  | .cancelled => (.ended, .cancelled, [])
  | .unrung => (.ended, r, [])

/-- What the end of an ordinary call reports (R120); the call has left the queue or its ringer. -/
def reportCall (c : Call) (o : CallOutcome) (line : Option (Fin 10)) (esc : Escalation) (r : Reason) (e : Ev) : Ev :=
  let a := callAnswer o line r
  (e.notice (.callEnd c o line esc)).ended (.call c.number) a.1 a.2.1 a.2.2

/-- The checks of a post that is not of the wrong form or out of range (R111). -/
def postChecks (p : Post) (e : Ev) : List (Bool × Reason) :=
  [(p.lines != 0 && p.lines &&& ~~~ e.blx.present == 0 && Body.within 1 9 p.repeats &&
      (!p.escalate || p.cls == .urgent), .range),
   (p.cls.admitted e.msu.mode, .mode),
   (p.cls == .urgent || p.cls == .watch || e.bellPermitted, .power)]

/-- CALL-POST or a BELL step (R111): refused, merged or admitted. -/
def postCall (p : Post) (e : Ev) : PostResult :=
  match firstFailure (e.postChecks p) with
  | some r => .refused r
  | none =>
    match e.blx.merge p with
    | some (n, b) => .merged n (e.setBlx fun _ => b)
    | none =>
      if e.blx.calls.length < 16 then
        let a := e.blx.enrol p
        .admitted a.1 (e.setBlx fun _ => a.2)
      else .refused .full

/-- An unanswered URGENT call with its escalate flag set is re-admitted once (R118). -/
def escalate (c : Call) (e : Ev) : Escalation × Ev :=
  let p : Post := ⟨c.code, e.blx.present, .urgent, c.repeats, c.wantAnswer, false, c.origin, false⟩
  match e.blx.merge p with
  | some (n, b) => (.merged n, e.setBlx fun _ => b)
  | none =>
    let a := e.blx.enrol p
    (.escalated a.1, e.setBlx fun _ => a.2)

/-- Every ordinary call of the classes ends as UNRUNG (R123): the queued ones in queue order, then the held ones in
ringer order (log 44). -/
def purge (classes : CallClass → Bool) (r : Reason) (e : Ev) : Ev :=
  let gone := e.blx.calls.filter fun c => classes c.cls
  let e := e.setBlx fun b =>
    let b := (List.finRange 3).foldl (fun b r => if (b.callOf r).any fun c => classes c.cls then b.giveUp r else b) b
    { b with queue := b.queue.filter fun c => !classes c.cls }
  e.forEach gone fun c => reportCall c .unrung none .none r

/-- ROUTINE and CLOSING calls (R123). -/
def ordinaryUse (c : CallClass) : Bool := c == .routine || c == .closing

/-! ### Rounds, answers and windows (R107, R116-R118) -/

/-- A ringer's code completes (R116, R121). -/
def roundComplete (r : Fin 3) (e : Ev) : Ev :=
  let x := e.blx.ringers[r]
  if x.state = .striking then
    match x.held with
    | some .alert => e.setBlx fun b => b.setRinger r (x.wait .pausing (e.timer (b.gap * 100)))
    | some (.ordinary c) =>
      let c := { c with remaining := c.remaining - 1, rounds := c.rounds + 1, guard := false }
      let x := { x with held := some (.ordinary c) }
      if 0 < c.remaining then e.setBlx fun b => b.setRinger r (x.wait .pausing (e.timer (b.gap * 100)))
      else if c.wantAnswer then e.setBlx fun b => b.setRinger r (x.wait .awaiting (e.timer (b.window * 100)))
      else (e.setBlx fun b => b.giveUp r).reportCall c .rung none .none .none
    | _ => e
  else e

/-- The repeat gap ends: the next round (R116, R121). -/
def gapEnd (r : Fin 3) (e : Ev) : Ev :=
  let x := e.blx.ringers[r]
  if x.state = .pausing then
    match x.held with
    | some .alert => e.setBlx fun b => b.setRinger r (x.strike e.fzu.alertCode)
    | some (.ordinary c) => e.setBlx fun b => b.setRinger r (x.strike c.code)
    | _ => e
  else e

/-- The answer window runs out (R118). -/
def windowOut (r : Fin 3) (e : Ev) : Ev :=
  match e.blx.ringers[r].state, e.blx.callOf r with
  | .awaiting, some c =>
    let e := e.setBlx fun b => b.giveUp r
    if c.cls = .urgent ∧ c.escalate then
      let x := e.escalate c
      x.2.reportCall c .unanswered none x.1 .none
    else e.reportCall c .unanswered none .none .none
  | _, _ => e

/-- The answer guard of the call a ringer holds clears (R117). ANSWER_GUARD_CLEAR does this alone, whatever the ringer's
state, and leaves the stroke on (log 12). -/
def clearGuard (r : Fin 3) (e : Ev) : Ev :=
  match e.blx.callOf r with
  | some c => e.setBlx fun b => b.setRinger r { b.ringers[r] with held := some (.ordinary { c with guard := false }) }
  | none => e

/-- The on time or off time of a stroke ends (R107); the first on time clears the answer guard (R117), as the row of the
guard does too (log 12). -/
def strokeEnd (r : Fin 3) (e : Ev) : Ev :=
  let x := e.blx.ringers[r]
  if x.state = .striking then
    let evac := x.held == some .evac
    let e := e.setBlx fun b => b.setRinger r { x with stroke := if evac then x.stroke.toggled else x.stroke.next }
    e.when x.stroke.on (clearGuard r)
  else e

/-- An ANSWER input becomes active on a line (R117). -/
def answered (line : Fin 10) (e : Ev) : Ev :=
  match (List.finRange 3).find? fun r => e.blx.ringers[r].lines.getLsbD line.val with
  | none => e
  | some r =>
    match e.blx.callOf r with
    | some c =>
      if c.wantAnswer && !c.guard then (e.setBlx fun b => b.giveUp r).reportCall c .answered (some line) .none .none
      else e
    | none => e

/-- An ordinary call ends as CANCELLED (R119); none when no call has the number. -/
def cancelCall (n : Nat) (e : Ev) : Option Ev :=
  match e.blx.queue.find? fun c => c.number == n with
  | some c =>
    some ((e.setBlx fun b => { b with queue := b.queue.filter fun x => x.number != n }).reportCall c .cancelled none
      .none .none)
  | none =>
    match (List.finRange 3).find? fun r => (e.blx.callOf r).any fun c => c.number == n with
    | none => none
    | some r =>
      (e.blx.callOf r).map fun c => (e.setBlx fun b => b.giveUp r).reportCall c .cancelled none .none .none

end Ev

end Sys2Proof.Machine
end

