-- ==== Sys2Proof/Machine/Phrases.lean ====
section
/-! DEFINITION. The Phrase Store (07): a declaration (R131), a block load with its completion check (R132, R133). -/
namespace Sys2Proof.Machine

namespace Phs

/-- The slot with nothing loaded: its loaded set empty, its computed check none (R131). -/
def emptied (s : Slot) : Slot := { s with loaded := [], computed := none }

/-- The sum of the lengths with slot `k` at a new length (R130). -/
def totalWith (p : Phs) (k : Fin 64) (length : Nat) : Nat := p.total - p.slots[k].length + length

/-- The higher slots a declaration returns to DECLARED (R131 step 3). -/
def invalidated (p : Phs) (k : Fin 64) (length : Nat) : BitVec 64 :=
  if length = p.slots[k].length then 0
  else setOf 64 fun j => decide (k.val < j.val) && decide (p.slots[j].length ≠ 0)

/-- An accepted PHRASE-DECLARE (R131). -/
def declare (p : Phs) (k : Fin 64) (length : Nat) (check : BitVec 16) : Phs :=
  let gone := p.invalidated k length
  let slots := (List.finRange 64).foldl (fun v j => if gone.getLsbD j.val then put v j (emptied v[j]) else v) p.slots
  { p with slots := put slots k ⟨length, if length = 0 then 0 else check, [], none⟩ }

/-- The bytes of a slot's phrase in storage, in the order the completion check takes them (R133). -/
def phrase (p : Phs) (k : Fin 64) : List Byte :=
  Memory.readAll p.storage (p.start k.val * Config.blockBytes) (p.slots[k].length * Config.blockBytes)

/-- The slot's loaded set holds every index (R129). -/
def complete (p : Phs) (k : Fin 64) : Bool := decide (p.slots[k].length ≤ p.slots[k].loaded.length)

/-- The block and its index stored, before any completion check (R132). -/
def stored (p : Phs) (k : Fin 64) (i : Nat) (bytes : List Byte) : Phs :=
  { p with storage := Memory.writeAll p.storage ((p.start k.val + i) * Config.blockBytes) bytes, slots := put p.slots k { p.slots[k] with loaded := insertAscending i p.slots[k].loaded } }

/-- The completion check: the computed check of a complete slot (R133). -/
def checked (p : Phs) (k : Fin 64) : Phs :=
  { p with slots := put p.slots k { p.slots[k] with computed := some (crc16 (p.phrase k)) } }

/-- An accepted PHRASE-LOAD, with the N-PHRASE of its completion check (R132, R133). -/
def load (p : Phs) (k : Fin 64) (i : Nat) (bytes : List Byte) : Phs × List Notice :=
  let p := p.stored k i bytes
  if p.complete k then
    let p := p.checked k
    let s := p.slots[k]
    (p, [.phrase k s.state s.length s.check (s.computed.getD 0)])
  else (p, [])

/-- The lowest index not loaded (R137). -/
def lowestMissing (s : Slot) : Option Nat := (List.range s.length).find? fun i => !s.loaded.contains i

end Phs

end Sys2Proof.Machine
end

