-- ==== Sys2Proof/Machine/Announce.lean ====
section
/-! DEFINITION. The Announcement Player (08): posts (R141), the sounding of a script (R142, R143), the ends of an
announcement (R144, R145), fire playback (R146-R148), and the purges of the night and the supply (R149). -/
namespace Sys2Proof.Machine

/-- The cursor at the start of a script, and the cleared cursor (R138, R142): stage chime, also for a script whose chime
flag is clear (log 59). -/
def Cursor.start : Cursor := ⟨false, 0, 0, 0⟩

/-- The skip record with nothing skipped. -/
def Skip.none : Skip := ⟨0, false⟩

/-- A phrase slot number as a slot of the directory; a script names slots 1 to 63 (R139). -/
def slotOf (n : Nat) : Fin 64 := Fin.ofNat 64 n

/-- What a script comes to from item `i`, repeat `rep` on: the next item and repeat to sound, none at the end of the
script, with the items skipped on the way (R143). -/
def seek (ready : Nat → Bool) : List Item → Nat → Nat → Skip → Option (Nat × Nat × Nat) × Skip
  | [], _, _, sk => (none, sk)
  | it :: rest, i, rep, sk =>
    if it.repeats ≤ rep then seek ready rest (i + 1) 0 sk
    else if ready it.slot then (some (i, rep, it.slot), sk)
    else seek ready rest (i + 1) 0 { sk with items := adjoin sk.items i }

namespace Anp

/-- The announcement queue with a new one at the tail of its class (R140). -/
def join (q : List Announcement) (a : Announcement) : List Announcement :=
  q.filter (fun x => x.cls.code ≤ a.cls.code) ++ a :: q.filter (fun x => a.cls.code < x.cls.code)

/-- The announcements in being (R140). -/
def all (a : Anp) : List Announcement := a.queue ++ a.playing.toList

/-- The player IDLE, with nothing sounding (R144, R148). The cursor is at its start (log 33); the skip record stands as
the end left it (log 27). -/
def silent (a : Anp) : Anp :=
  { a with state := .idle, playing := none, fire := false, cursor := .start, pendingCut := false, sounding := none, timer := none, firePause := false }

end Anp

namespace Ev

def slotReady (e : Ev) (n : Nat) : Bool := e.phs.ready (slotOf n)

/-! ## Ends (R144) -/

/-- The final answer of an announcement's end (R144). -/
def annAnswer (o : AnnOutcome) (sk : Skip) : Outcome × Reason × List Byte :=
  match o with
  | .played => (.done, .none, Enc.skip sk)
  | .cancelled => (.ended, .cancelled, [])
  | .cut => (.ended, .cut, [])
  | .dropped => (.ended, .dropped, [])

/-- What the end of an announcement reports (R144). -/
def reportAnn (a : Announcement) (o : AnnOutcome) (c : AnnCause) (sk : Skip) (e : Ev) : Ev :=
  let x := annAnswer o sk
  (e.notice (.announceEnd a o c sk)).ended (.announcement a.number) x.1 x.2.1 x.2.2

/-- The playing announcement ends and the player is IDLE (R144); without one nothing happens. -/
def endPlaying (o : AnnOutcome) (c : AnnCause) (e : Ev) : Ev :=
  match e.anp.playing with
  | some a =>
    let sk := e.anp.skip
    (e.setAnp Anp.silent).reportAnn a o c sk
  | none => e

/-- Every waiting announcement ends as DROPPED, in queue order (R146, R149). A waiting announcement has no skip record,
and its notice carries an empty one (log 57). -/
def dropQueue (c : AnnCause) (e : Ev) : Ev :=
  let q := e.anp.queue
  (e.setAnp fun a => { a with queue := [] }).forEach q fun a => reportAnn a .dropped c .none

/-! ## Sounding a script (R143) -/

/-- SOUNDING a phrase slot from its first block (R143). -/
def sound (slot : Nat) (cursor : Cursor) (e : Ev) : Ev :=
  e.setAnp fun a => { a with state := .sounding, cursor := cursor, sounding := some (slotOf slot), timer := none, firePause := false }

/-- The script is at its end: the announcement is PLAYED, or the fire round gives way to the fire pause (R143, R147),
in which the cursor is at its start (log 33). -/
def scriptDone (e : Ev) : Ev :=
  if e.anp.fire then
    e.setAnp fun a => { a with state := .gap, cursor := .start, sounding := none, timer := e.timer (e.fzu.fireRepeat * 100), firePause := true }
  else e.endPlaying .played .none

/-- On from item `i`, repeat `rep` (R143). -/
def seekFrom (i rep : Nat) (e : Ev) : Ev :=
  let r := seek e.slotReady (e.anp.script.items.drop i) i rep e.anp.skip
  let e := e.setAnp fun a => { a with skip := r.2 }
  match r.1 with
  | some (i, rep, slot) => e.sound slot ⟨true, i, rep, 0⟩
  | none => e.scriptDone

/-- The script begins: the chime when it is set and READY, else the first item (R143). -/
def beginScript (e : Ev) : Ev :=
  if e.anp.script.chime then
    if e.slotReady 0 then e.sound 0 .start
    else (e.setAnp fun a => { a with skip := { a.skip with chime := true } }).seekFrom 0 0
  else e.seekFrom 0 0

/-- The script a fire round sounds: the fire script when it holds an item, else the chime alone (R147). -/
def fireRoundScript (e : Ev) : Script :=
  match e.fzu.fireScript with
  | some k => if e.anp.scripts[k].items.isEmpty then ⟨[], true, 0xFF⟩ else e.anp.scripts[k]
  | none => ⟨[], true, 0xFF⟩

/-- A round of fire playback begins (R147). -/
def beginRound (e : Ev) : Ev :=
  (e.setAnp fun a => { a with script := e.fireRoundScript, skip := .none, cursor := .start, firePause := false }).beginScript

/-- A phrase has sounded to its end: the item's gap, or on at once (R143). -/
def phraseDone (e : Ev) : Ev :=
  let c := e.anp.cursor
  let e := e.setAnp fun a => { a with sounding := none, cursor := { c with block := 0 } }
  if c.onItem then
    let gap := (e.anp.script.items[c.item]?.map Item.gap).getD 0
    if gap = 0 then e.seekFrom c.item (c.rep + 1)
    else e.setAnp fun a => { a with state := .gap, timer := e.timer gap, firePause := false }
  else e.seekFrom 0 0

/-! ## Taking the queue head (R142) -/

/-- The player takes one announcement (R142): PREPARING, or PLAYED at once when its script has nothing to play. -/
def takeOne (a : Announcement) (rest : List Announcement) (e : Ev) : Ev :=
  let s := e.anp.scripts[a.script]
  let e := e.setAnp fun x => { x with queue := rest, playing := some a, script := s, cursor := .start, skip := .none }
  if s.items.isEmpty && !s.chime then e.endPlaying .played .none
  else e.setAnp fun x => { x with state := .preparing, timer := e.timer 25 }

/-- An IDLE player takes the queue head, until it has something to play or the queue is empty (R142). -/
def takeHeads : Nat → Ev → Ev
  | 0, e => e
  | fuel + 1, e =>
    if e.anp.state = .idle ∧ e.anp.fire = false then
      match e.anp.queue with
      | [] => e
      | a :: rest => takeHeads fuel (e.takeOne a rest)
    else e

def takeHead (e : Ev) : Ev := takeHeads e.anp.queue.length e

/-! ## Timers and block boundaries -/

/-- PREPARING ends (R142, R146). -/
def preparingEnd (e : Ev) : Ev :=
  if e.anp.state = .preparing then (if e.anp.fire then e.beginRound else e.beginScript) else e

/-- A block boundary (R143, R145, R148). -/
def blockEnd (e : Ev) : Ev :=
  match e.anp.state, e.anp.sounding with
  | .sounding, some k =>
    if e.anp.pendingCut then
      (if e.anp.fire then e.setAnp Anp.silent else e.endPlaying .cut .cancel)
    else
      let n := e.anp.cursor.block + 1
      if n < e.phs.slots[k].length then e.setAnp fun a => { a with cursor := { a.cursor with block := n } }
      else e.phraseDone
  | _, _ => e

/-- An item's gap ends (R143). -/
def gapDone (e : Ev) : Ev :=
  if e.anp.state = .gap ∧ e.anp.firePause = false then e.seekFrom e.anp.cursor.item (e.anp.cursor.rep + 1) else e

/-- The fire pause ends (R147). -/
def firePauseDone (e : Ev) : Ev :=
  if e.anp.state = .gap ∧ e.anp.firePause = true then e.beginRound else e

/-! ## Fire playback (R146, R148), the night and the supply (R149) -/

/-- Fire playback begins: its third step (R146). -/
def startPlayback (e : Ev) : Ev :=
  e.setAnp fun a => { a.silent with fire := true, skip := .none, state := .preparing, timer := e.timer 25 }

/-- The fire condition becomes ACTIVE (R146), or does so while the last block of fire playback sounds (R148). -/
def playFire (e : Ev) : Ev :=
  if e.anp.fire then (e.setAnp fun a => { a with pendingCut := false }).dropQueue .fire
  else ((e.endPlaying .cut .fire).dropQueue .fire).startPlayback

/-- The fire condition becomes NONE (R148). -/
def stopFire (e : Ev) : Ev :=
  if e.anp.fire then
    (if e.anp.state = .sounding then e.setAnp fun a => { a with pendingCut := true } else e.setAnp Anp.silent)
  else e

/-- The playing announcement is CUT and the waiting ones DROPPED (R149). -/
def purgeAnnouncements (c : AnnCause) (e : Ev) : Ev := (e.endPlaying .cut c).dropQueue c

/-! ## Posts and cancels (R141, R145) -/

/-- The class is admitted in the store mode (R141). -/
def annAdmitted (c : AnnClass) (m : StoreMode) : Bool :=
  match c, m with
  | .routine, .trading | .routine, .closing | .closing, .closing => true
  | _, _ => false

/-- The speaker set in force: 0 stands for the script's default (R141, R184). -/
def speakersFor (k : Fin 16) (speakers : BitVec 8) (e : Ev) : BitVec 8 :=
  if speakers = 0 then e.anp.scripts[k].speakers else speakers

/-- The checks of an announcement that is of the right form (R141). -/
def announceChecks (k : Fin 16) (cls : AnnClass) (speakers : BitVec 8) (e : Ev) : List (Bool × Reason) :=
  [(e.speakersFor k speakers != 0, .range),
   (!e.anp.scripts[k].items.isEmpty, .state),
   (annAdmitted cls e.msu.mode, .mode),
   (e.ampPermitted, .power),
   (!e.fzu.fire, .fire),
   (decide (e.anp.queue.length < 6), .full)]

/-- ANNOUNCE or an ANNOUNCE step (R141). -/
def postAnnouncement (k : Fin 16) (cls : AnnClass) (speakers : BitVec 8) (o : Origin) (heldRef : Bool) (e : Ev) :
    PostResult :=
  match firstFailure (e.announceChecks k cls speakers) with
  | some r => .refused r
  | none =>
    let n := freeNumber (e.anp.all.map Announcement.number) 255 e.anp.next
    .admitted n (e.setAnp fun a => { a with queue := Anp.join a.queue ⟨n, k, e.speakersFor k speakers, cls, o, heldRef⟩, next := nextNumber n })

/-- ANNOUNCE-CANCEL (R145); none when no announcement has the number. The notice of a waiting one carries an empty skip
record (log 57). -/
def cancelAnnouncement (n : Nat) (e : Ev) : Option Ev :=
  match e.anp.queue.find? fun a => a.number == n with
  | some a =>
    some ((e.setAnp fun x => { x with queue := x.queue.filter fun y => y.number != n }).reportAnn a .cancelled .cancel
      .none)
  | none =>
    if e.anp.playing.any fun a => a.number == n then
      some (if e.anp.state = .sounding then e.setAnp fun a => { a with pendingCut := true } else e.endPlaying .cut .cancel)
    else none

end Ev

end Sys2Proof.Machine
end

