-- ==== Sys2Proof/Machine/TimeBase.lean ====
section
/-! DEFINITION. The Time Base (09): the midnight rollover (R153), TIME-SET (R154), the trim and the reference (R156, R157),
hours and exceptions (R158-R160). What an instant reached does is in Sys2Proof/Machine/Closing.lean. -/
namespace Sys2Proof.Machine

namespace Tmb

/-- The exception record of a date. -/
def exceptionOn (t : Tmb) (d : Date) : Option Exception := t.exceptions.find? fun x => x.date == d

/-- The weekly record of a weekday, 1 to 7. -/
def weeklyOn (t : Tmb) (weekday : Nat) : Hours := t.weekly.toList.getD (weekday - 1) .closed

/-- Today's hours: the exception of today's date, else the weekly record (R160). -/
def todaysHours (t : Tmb) : Hours :=
  match t.exceptionOn t.cal.date with
  | some x => x.hours
  | none => t.weeklyOn t.cal.date.weekday

/-- Today's hours recomputed (R160). -/
def recomputed (t : Tmb) : Tmb := { t with today := t.todaysHours }

/-- The records dated before today removed (R153, R154). -/
def purged (t : Tmb) : Tmb := { t with exceptions := t.exceptions.filter fun x => !x.date.before t.cal.date }

/-- One hundredth of own time, and the trim's counts made good (R153, R156, log 13). -/
def elapse (t : Tmb) : Tmb := { t with ownTime := t.ownTime + 1, divider := 0 }

/-- One hundredth of the calendar, with the midnight rollover where it falls (R153). -/
def tick (t : Tmb) : Tmb :=
  let last := t.cal.lastOfDay
  let t' := { t.elapse with cal := t.cal.tick }
  if last then
    let t' := { t' with timeUnset := t.timeUnset || t.cal.date == (⟨2099, 12, 31⟩ : Date) }
    t'.purged.recomputed
  else t'

/-- An accepted TIME-SET (R154). -/
def setTime (t : Tmb) (c : CalTime) : Tmb :=
  let t' := { t with cal := c, timeUnset := false }
  (if c.date = t.cal.date then t' else t'.purged).recomputed

/-- The end of a 64-second period (R156): a positive trim removes counts, a negative one inserts them. -/
def trimPeriod (t : Tmb) : Tmb := if t.ref = .crystal then { t with divider := t.divider - t.trim } else t

/-- The exception list with a record, in date order, replacing one of the same date (R159). -/
def withException (t : Tmb) (x : Exception) : Tmb :=
  recomputed { t with exceptions := insertBy (fun y => (y.date.days : Int)) x (t.exceptions.filter fun y => y.date != x.date) }

def withoutException (t : Tmb) (d : Date) : Tmb :=
  recomputed { t with exceptions := t.exceptions.filter fun y => y.date != d }

def withWeek (t : Tmb) (i : Fin 7) (h : Hours) : Tmb := recomputed { t with weekly := put t.weekly i h }

/-- Today's opening time as an instant, none on a CLOSED day (R155). -/
def opening (t : Tmb) : Option Int :=
  match t.today with
  | .closed => none
  | .times o _ => some (instantOf t.cal.date o)

/-- Today's closing time as an instant. -/
def closing (t : Tmb) : Option Int :=
  match t.today with
  | .closed => none
  | .times _ c => some (instantOf t.cal.date c)

end Tmb

/-- The start instant of the day's run (R165). -/
def startInstant (t : Tmb) (programme : List Step) : Option Int :=
  match t.today, programme with
  | .times _ c, st :: _ => if (c : Int) + st.offset < 0 then none else some (instantOf t.cal.date (c + st.offset))
  | _, _ => none

end Sys2Proof.Machine
end

