-- ==== Sys2Proof/Machine/Modes.lean ====
section
/-! DEFINITION. The Mode and Supply Unit (01): changes of the store mode and what is handed on with them (R3-R7, R13), and
changes of the supply (R15-R17, R19). -/
namespace Sys2Proof.Machine

/-- The wake causes (R1). -/
def hostWake : BitVec 3 := 1
def openingTime : BitVec 3 := 2
def staffKeyWake : BitVec 3 := 4

namespace Ev

/-- A new store mode, with the cause N-MODE gives (R8). -/
def setMode (m : StoreMode) (cause : ModeCause) (e : Ev) : Ev :=
  { e.setMsu fun u => { u with mode := m } with modeCause := some cause }

/-- The return from NIGHT to TRADING as the blocks take it (R7, R123). -/
def handWake (e : Ev) : Ev := (e.setMsu fun u => { u with mode := .trading }).purge (fun c => c == .watch) .mode

/-- NIGHT is entered and handed on (R7); a non-empty wake latch takes the store through it (R13). -/
def enterNight (cause : ModeCause) (e : Ev) : Ev :=
  let e := (((e.setMode .night cause).lockIfHalted).purge ordinaryUse .mode).purgeAnnouncements .night
  if e.msu.wake = 0 then e else { e.handWake with passed := true }

/-- A cause added to the wake latch in CLOSING or NIGHT; in NIGHT it takes the store to TRADING (R10-R13). A NIGHT that
this same event has entered is thereby passed through (R8). -/
def latch (cause : BitVec 3) (e : Ev) : Ev :=
  let add := setMsu fun u => { u with wake := u.wake ||| cause }
  match e.msu.mode with
  | .closing => add e
  | .night =>
    if e.modeCause.isNone then { (add e).handWake with modeCause := some .wake } else { (add e).handWake with passed := true }
  | _ => e

/-! ## Supply (R15-R17, R19) -/

/-- The notice of a change of the source or the battery-low flag (R16). -/
def reportPower (e : Ev) : Ev := e.notice (.power e.msu.source e.msu.batteryLow)

/-- Bell calls and announcements whose supply use is withdrawn end (R123, R149). -/
def withdrawBells (e : Ev) : Ev := e.when (!e.bellPermitted) (purge ordinaryUse .power)
def withdrawSpeakers (e : Ev) : Ev := e.when (!e.ampPermitted) (purgeAnnouncements .power)

/-- The reserve-hold timer on a change to RESERVE (R102), with the claim of a hold of 0 min (R103). -/
def startHold (e : Ev) : Ev :=
  if e.msu.batteryLow then e.setFzu fun f => { f with hold := .expired }
  else if e.fzu.reserveHold = 0 then (e.setFzu fun f => { f with hold := .expired }).reserveRelease .reserveHold
  else e.setFzu fun f => { f with hold := .running (e.now + f.reserveHold * 6000) }

/-- A change to RESERVE (R15, R16, R57, R77, R87, R102, R123, R149). -/
def toReserve (e : Ev) : Ev :=
  let e := (e.setMsu fun u => { u with source := .reserve }).stamp stampMains 0
  let e := e.powerStop.startHold.withdrawGrilles
  let e := e.when e.msu.batteryLow (reserveRelease .batteryLow)
  e.withdrawBells.withdrawSpeakers.reportPower

/-- A change to MAINS (R15, R58, R86, R102). A linked grille that waited for it rises after the evaluation of R60 (log 5). -/
def toMains (e : Ev) : Ev :=
  let was := e.upPermitted true
  let e := e.setMsu fun u => { u with source := .mains }
  let e := e.when (e.fzu.fire && !was) endSupplyWaits
  (e.powerReturn.setFzu fun f => { f with hold := .stopped }).reportPower

/-- A RUNNING reserve-hold timer becomes EXPIRED with no claim of its own (R102). -/
def spendHold (e : Ev) : Ev :=
  match e.fzu.hold with
  | .running _ => e.setFzu fun f => { f with hold := .expired }
  | _ => e

/-- The battery-low flag becomes set (R16, R77, R87, R102). -/
def batteryLow (e : Ev) : Ev :=
  let e := e.setMsu fun u => { u with batteryLow := true }
  (e.when e.onReserve fun e => e.spendHold.withdrawGrilles.reserveRelease .batteryLow).reportPower

/-- The battery-low flag clears (R16, R86). -/
def batteryGood (e : Ev) : Ev :=
  let was := e.upPermitted true
  let e := e.setMsu fun u => { u with batteryLow := false }
  (e.when (e.fzu.fire && !was && e.upPermitted true) endSupplyWaits).reportPower

/-- The permits loaded; a permit turned off while on RESERVE withdraws its use (R17, R19). -/
def loadPermits (bells announcements grilles : Bool) (e : Ev) : Ev :=
  let old := e.msu
  let e := e.setMsu fun u => { u with bellPermit := bells, announcePermit := announcements, grillePermit := grilles }
  let e := e.when (old.bellPermit && !bells) withdrawBells
  let e := e.when (old.announcePermit && !announcements) withdrawSpeakers
  e.when (old.grillePermit && !grilles) withdrawGrilles

end Ev

end Sys2Proof.Machine
end

