-- ==== Sys2Proof/Machine/Fire.lean ====
section
/-! DEFINITION. The Fire Zone Unit (05): a zone's change and what is handed on with it (R90, R91, R96), the clearance
deadline (R100, R101), and the reserve-hold expiry (R103). -/
namespace Sys2Proof.Machine

namespace Ev

/-- The clearance deadline when the fire condition moves (R100). -/
def deadlineFor (active : Bool) (e : Ev) : Deadline :=
  if active then .running (e.now + e.fzu.clearanceWait * 100) else .cleared

/-- A zone's new record, and the fire condition and deadline that follow from it (R96, R100). -/
def writeZone (z : Fin 6) (new : Zone) (e : Ev) : Ev :=
  let e := e.setFzu fun f => { f with zones := put f.zones z new }
  let active := e.anyInFire
  if active = e.fzu.fire then e
  else e.setFzu fun f => { f with fire := active, deadline := e.deadlineFor active }

/-- N-FIRE of the condition as it stands (R96). -/
def reportFire (z : Option (Fin 6)) (e : Ev) : Ev := e.notice (.fire e.fzu.fire e.alarmed e.standing z)

/-- What a zone's new state hands to Shutter Control and the Time Base (R84-R86, R91). The grilles are treated before
Paternoster Control takes the change: a grille that rises closes the gate to a creep (log 5). -/
def handZone (z : Fin 6) (st : ZoneState) (e : Ev) : Ev :=
  let e := match st with
    | .alarmed => (e.releaseZone z).stamp stampFire z.val
    | .quiet => e.zoneQuiet z
    | .standing => e
  e.when (e.fzu.fire && st != .quiet) treatGrilles

/-- The fire condition becomes ACTIVE: the fire demand, fire playback, the standing calls (R59, R121, R146). -/
def fireBegins (e : Ev) : Ev := e.fireDemand.playFire.rebuildStanding

/-- The fire condition becomes NONE (R62, R86, R122, R148). -/
def fireEnds (e : Ev) : Ev := (e.fireOver.forgetFireWaits.stopFire).setBlx Blx.dismiss

/-- A zone's record changes, with N-ZONE, what its state hands on, and N-FIRE where the condition moves (R91, R96). -/
def changeZone (z : Fin 6) (new : Zone) (cause : ZoneCause) (e : Ev) : Ev :=
  let old := e.fzu.zones[z]
  if new = old then e
  else
    let was := e.fzu.fire
    let moved := new.state != old.state
    let e := (e.writeZone z new).notice
      (.zone z old.state new.state new.declared new.enabled (e.lines.zoneIn.getLsbD z.val) cause)
    let e := e.when moved (handZone z new.state)
    if e.fzu.fire = was then e.when (moved && e.fzu.fire) rebuildStanding
    else
      let e := e.reportFire (some z)
      if e.fzu.fire then e.fireBegins else e.fireEnds

/-- A zone after its input becomes active (R90). -/
def zoneOn (z : Zone) : Zone :=
  match z.state with
  | .quiet | .standing => if z.enabled then { z with state := .alarmed, declared := false } else z
  | .alarmed => z

/-- A zone after its input goes inactive (R90). -/
def zoneOff (z : Zone) : Zone :=
  match z.state with
  | .alarmed => if z.enabled && !z.declared then { z with state := .standing } else z
  | _ => z

/-- The clearance deadline expires (R101): the chain is stopped, then the waiting shutters fall. -/
def deadlineOut (e : Ev) : Ev :=
  match e.fzu.deadline with
  | .running _ =>
    let e := e.when (!e.demandOff) (estop .clearance)
    let waiting := e.releaseWaitSet
    let e := e.deadlineRelease
    let e := match lowest waiting with
      | some i => e.stamp stampForced i
      | none => e
    e.setFzu fun f => { f with deadline := .spent }
  | _ => e

/-- The reserve-hold timer runs out (R103). -/
def holdOut (e : Ev) : Ev :=
  match e.fzu.hold with
  | .running _ => (e.setFzu fun f => { f with hold := .expired }).reserveRelease .reserveHold
  | _ => e

end Ev

end Sys2Proof.Machine
end

