-- ==== Sys2Proof/Machine/Closing.lean ====
section
/-! DEFINITION. The Closing Programme Unit (10): a run's start (R165, R166), the steps falling due (R167-R170), the
deferred steps (R171), the night conditions (R172), the end by order (R173), and the instants the Time Base reaches
(R155). -/
namespace Sys2Proof.Machine

namespace Ev

/-! ## Taking a step (R168-R170, R172) -/

/-- An ANNOUNCE or BELL step (R168). -/
def takeWarning (i : Nat) (due : Int) (post : Ev → PostResult) (e : Ev) : Ev :=
  if e.fzu.fire then e.recordStep i ⟨.dropped, .none, []⟩
  else if 12000 < e.tmb.cal.abs - due then e.recordStep i ⟨.late, .none, []⟩
  else
    match post e with
    | .refused r => e.recordStep i ⟨.failed, r, []⟩
    | .merged _ e' => e'.recordStep i ⟨.done, .none, []⟩
    | .admitted _ e' => e'.recordStep i ⟨.done, .none, []⟩

/-- A SWEEP step (R169). -/
def takeSweep (i : Nat) (e : Ev) : Ev :=
  if e.fzu.fire then e.recordStep i ⟨.deferred, .none, []⟩
  else
    match e.requestSweep true with
    | .refused r => e.recordStep i ⟨.failed, r, []⟩
    | .done => e.recordStep i ⟨.done, .none, []⟩
    | .started e' => e'.recordStep i ⟨.waiting, .none, []⟩

/-- The close claim for a station of a GRILLES step (R83, R170). -/
def claimClose (i : Fin 16) (e : Ev) : ClaimResult :=
  match e.station i with
  | some s => if s.kind = .grille then e.requestClose i s .programme else .refused .range
  | none => .refused .range

/-- One close claim, with its result added to those of the step (R170). -/
def claimGrille (i : Fin 16) (r : Ev × List (Fin 16 × Reason)) : Ev × List (Fin 16 × Reason) :=
  match r.1.claimClose i with
  | .refused x => (r.1, r.2 ++ [(i, x)])
  | .done => (r.1, r.2 ++ [(i, .none)])
  | .started e => (e, r.2 ++ [(i, .none)])

/-- A GRILLES step (R170). DEFERRED, it has made no claims and keeps an empty list of results (log 60). -/
def takeGrilles (i : Nat) (set : BitVec 16) (e : Ev) : Ev :=
  if e.fzu.fire then e.recordStep i ⟨.deferred, .none, []⟩
  else
    let r := ((List.finRange 16).filter fun s => set.getLsbD s.val).foldl (fun r s => claimGrille s r) (e, [])
    match r.2.find? fun x => x.2 != .none with
    | some x => r.1.recordStep i ⟨.failed, x.2, r.2⟩
    | none => r.1.recordStep i ⟨.done, .none, r.2⟩

/-- The night conditions (R172). -/
def nightReady (e : Ev) : Bool :=
  e.pnc.state == .nightLock && e.nightClosed && !e.fzu.fire && !e.cpu.outstanding

/-- The NIGHT step is DONE, the run ends and the store enters NIGHT (R4, R172). -/
def nightFalls (i : Nat) (e : Ev) : Ev :=
  ((e.recordStep i ⟨.done, .none, []⟩).endRun .nightStep).enterNight .nightStep

/-- The NIGHT step (R172). -/
def takeNight (i : Nat) (e : Ev) : Ev :=
  if e.nightReady then e.nightFalls i else e.recordStep i ⟨.waiting, .none, []⟩

/-- A step is taken by its action (R167). -/
def takeStep (i : Nat) (due : Int) (a : Action) (e : Ev) : Ev :=
  match a with
  | .announce k sp => e.takeWarning i due (postAnnouncement k .closing sp .programme false)
  | .bell code lines repeats =>
    e.takeWarning i due (postCall ⟨code, lines, .closing, repeats, false, false, .programme, false⟩)
  | .sweep => e.takeSweep i
  | .grilles set => e.takeGrilles i set
  | .night => e.takeNight i

/-- The PENDING steps due by `limit`, in programme order (R167). -/
def takeDue (limit : Int) : Nat → Ev → Ev
  | 0, e => e
  | fuel + 1, e =>
    match e.cpu.run with
    | none => e
    | some run =>
      match e.cpu.programme[run.cursor]? with
      | none => e
      | some st =>
        if run.due st ≤ limit then
          takeDue limit fuel
            ((e.setCpu fun c => { c with run := some { run with cursor := run.cursor + 1 } }).takeStep run.cursor
              (run.due st) st.action)
        else e

def takeDueBy (limit : Int) (e : Ev) : Ev := takeDue limit e.cpu.programme.length e

/-- Every PENDING step already due (R167). -/
def takeDueSteps (e : Ev) : Ev := e.takeDueBy e.tmb.cal.abs

/-- The DEFERRED steps are taken again once the fire is over and the chain is at rest (R171). -/
def retakeDeferred (e : Ev) : Ev :=
  match e.cpu.run with
  | some run =>
    if e.fzu.fire ∨ e.pnc.state = .creeping ∨ e.pnc.state = .settling ∨ e.pnc.state = .held then e
    else e.forEach (e.cpu.stepsWhere fun _ o => o == .deferred) fun i e =>
      match e.cpu.programme[i]? with
      | some st => e.takeStep i (run.due st) st.action
      | none => e
  | none => e

/-- A WAITING NIGHT step meets its conditions (R172). -/
def checkNight (e : Ev) : Ev :=
  match e.cpu.stepsWhere fun a o => a == .night && o == .waiting with
  | i :: _ => if e.nightReady then e.nightFalls i else e
  | [] => e

/-! ## Starting and ending a run -/

/-- A run starts (R3, R165, R166): CLOSING, the wake latch emptied, the record made, the steps due by `limit` taken. A
PENDING GRILLES step has an empty list of results (log 60). -/
def startRun (cause : StartCause) (closing limit : Int) (e : Ev) : Ev :=
  let e := (e.setMode .closing .runStart).setMsu fun u => { u with wake := 0 }
  (e.setCpu fun c => { c with run := some ⟨cause, closing, 0, c.programme.map fun _ => ⟨.pending, .none, []⟩⟩ }).takeDueBy limit

/-- A run ended by CLOSING-CANCEL or FORCE-NIGHT: its open steps are DROPPED (R173). -/
def cutRun (cause : EndCause) (e : Ev) : Ev := e.dropSteps.endRun cause

/-- The start instant recomputed from today's hours and the programme (R165). -/
def renewStart (e : Ev) : Ev := e.setCpu fun c => { c with start := startInstant e.tmb c.programme }

/-! ## Instants reached (R155) -/

/-- The start instant `x` is reached (R165). -/
def startReached (x : Int) (e : Ev) : Ev :=
  match e.tmb.closing with
  | some c => if e.msu.mode = .trading then e.startRun .auto c x else e
  | none => e

/-- The next PENDING step falls due after `lo` and by `hi` (R167). -/
def stepReached (lo hi : Int) (e : Ev) : Bool :=
  match e.cpu.run with
  | some run =>
    match e.cpu.programme[run.cursor]? with
    | some st => decide (lo < run.due st) && decide (run.due st ≤ hi)
    | none => false
  | none => false

/-- An instant lies after `lo` and by `hi`. -/
def passes (lo hi : Int) (x : Option Int) : Bool := x.any fun t => decide (lo < t) && decide (t ≤ hi)

/-- An instant that is reached is acted on once the steps due before it are taken (R155, log 11). -/
def inTurn (lo hi : Int) (x : Option Int) (act : Int → Ev → Ev) (e : Ev) : Ev :=
  match x with
  | some x => if lo < x ∧ x ≤ hi then act x (e.takeDueBy (x - 1)) else e
  | none => e

/-- The instants that a TIME-SET reaches, the due steps among them, in the order of time; the steps due after the last
are left to the walk of R167 (R155, log 11). -/
def reachInstants (lo hi : Int) (e : Ev) : Ev :=
  let opening := e.tmb.opening
  let start := e.cpu.start
  let opens := inTurn lo hi opening fun _ => latch openingTime
  let starts := inTurn lo hi start startReached
  if start.any fun s => opening.any fun o => s < o then opens (starts e) else starts (opens e)

/-- Some instant is reached between `lo` and `hi`. -/
def someInstant (lo hi : Int) (e : Ev) : Bool :=
  passes lo hi e.tmb.opening || passes lo hi e.cpu.start || e.stepReached lo hi

/-- The instants that one hundredth of the calendar reaches: the opening time, the start instant, the due steps (R155,
R167, log 11). -/
def runInstants (lo hi : Int) (e : Ev) : Ev :=
  let starts := passes lo hi e.cpu.start
  let e := (e.when (passes lo hi e.tmb.opening) (latch openingTime)).when starts (startReached hi)
  e.when (e.stepReached lo hi) takeDueSteps

end Ev

end Sys2Proof.Machine
end

