-- ==== Sys2Proof/Machine/React.lean ====
section
/-! DEFINITION. The end of an event: what the blocks do of themselves once the event's own claims are made (R48, R59, R60,
R72, R85, R86, R115, R142, R171, R172), the notices that report the event as a whole (R8, R40), the output lines, and the
return to a state. One fixed order: log 5. -/
namespace Sys2Proof.Machine

namespace Ev

/-- A change of P in a SETTLING with purpose FIRE and no target: that of R59, and that of R61 as well (log 45). -/
def rechoose (e : Ev) : Ev :=
  e.when (e.pnc.state == .settling && e.pnc.purpose == .fire && e.pnc.target.isNone && e.pendingSet != e.p0) chooseAgain

/-- SETTLING finds the chain settled (R48). -/
def judgeIfSettled (e : Ev) : Ev := e.when (e.pnc.state == .settling && e.cht.settled) judge

/-- Paternoster Control has seen P and the gate as they stand. -/
def seen (e : Ev) : Ev := { e with p0 := e.pendingSet, gate0 := e.gateOpen }

/-- Paternoster Control evaluates a rest under fire: HALTED at once, HELD at its entry and when P, the gate or DRV_READY
gives cause (R60). -/
def evaluateFire (e : Ev) : Ev :=
  let cause := e.pn0 != .held || e.pendingSet != e.p0 || (e.gateOpen && !e.gate0) || e.drvRose
  (e.when (e.fzu.fire && (e.pnc.state == .halted || (e.pnc.state == .held && cause))) evaluateRest).seen

/-- HELD evaluated again when the stations have changed P or opened the gate (R60). -/
def evaluateAgain (e : Ev) : Ev :=
  (e.when (e.fzu.fire && e.pnc.state == .held && (e.pendingSet != e.p0 || (e.gateOpen && !e.gate0)))
    evaluateRest).seen

/-- What the blocks do of themselves, in one fixed order. -/
def react (e : Ev) : Ev :=
  let e := e.rechoose.judgeIfSettled.evaluateFire
  let e := e.settleStations.evaluateAgain
  let e := e.retakeDeferred.checkNight
  e.takeHead.setBlx Blx.assign

/-- N-PN-STATE or N-PN-STOPPED, when the event has changed the paternoster's state or a restart reports it (R40). -/
def reportPn (e : Ev) : Ev :=
  let st := e.pnc.state
  if st = e.pn0 ∧ e.pnForce = false then e
  else if st = .estop ∨ st = .lockedOut ∨ st = .powerStop then
    e.notice (.pnStopped e.pn0 st (if st = .estop then e.pnCause else none) e.pnc.causes e.pnc.startFaults)
  else e.notice (.pnState e.pn0 st st.demand e.cht.position e.pnc.target e.pnc.purpose)

/-- N-MODE, when the event has changed the store mode (R8). -/
def reportMode (e : Ev) : Ev :=
  match e.modeCause with
  | none => e
  | some c =>
    let woken := e.msu.mode == .trading && (e.mode0 == .night || e.passed)
    e.notice (.mode e.mode0 e.msu.mode c e.passed (if woken then e.msu.wake else 0))

/-- The end of an event. -/
def conclude (e : Ev) : Ev := e.react.reportPn.reportMode

/-- An event begins on a store. -/
def begin (v : Env) (st : Store) : Ev where
  toStore := st
  toEnv := v
  offers := []
  pn0 := st.pnc.state
  pnForce := false
  pnCause := none
  p0 := st.pendingSet
  gate0 := st.gateOpen
  drvRose := false
  mode0 := st.msu.mode
  modeCause := none
  passed := false

end Ev

/-! ## The Link Unit's side of an event (R178, R179) -/

/-- The offer is a notice, not the end of a long operation. -/
def Offer.isNotice : Offer → Bool
  | .notice _ => true
  | .ended .. => false

namespace Lnk

/-- A frame that always enters the outbox: an answer or a final answer (R179). -/
def push (f : OutFrame) (l : Lnk) : Lnk := { l with outbox := l.outbox ++ [f] }

/-- The occupancy below which a notice is admitted (R179). -/
def limit (n : Notice) : Nat := if n.safety then 28 else 20

/-- A notice is admitted to the outbox, or discarded with the notices-lost flag set (R179). -/
def offer (n : Notice) (l : Lnk) : Lnk :=
  if l.outbox.length < limit n then l.push (.notice n) else { l with lost := true }

/-- An operation ends: every held answer that waits for it becomes a final answer (R178), in the order in which their
orders were taken (log 4). -/
def release (op : HeldOp) (o : Outcome) (r : Reason) (data : List Byte) (l : Lnk) : Lnk :=
  { l with held := l.held.filter fun h => h.op != op, outbox := l.outbox ++ (l.held.filter fun h => h.op == op).map fun h => .final h.tag h.code o r data }

/-- One offer of a block. -/
def take (o : Offer) (l : Lnk) : Lnk :=
  match o with
  | .notice n => l.offer n
  | .ended op out r data => l.release op out r data

/-- The offers of an event: the final answers, then the notices, each in their order (log 4). -/
def takeAll (os : List Offer) (l : Lnk) : Lnk :=
  (os.filter Offer.isNotice).foldl (fun l o => l.take o) ((os.filter fun o => !o.isNotice).foldl (fun l o => l.take o) l)

end Lnk

/-- The output lines and the published clear-landings set follow the blocks (R18, R33, R40, R69). -/
def Store.driven (s : Store) (phs : Phs) : Store :=
  { s with cht := { s.cht with clear := s.clearNow }, out := outputs s phs }

/-- The state after an event: the store as the event leaves it with the outputs that follow, what it read, and its
offers with the Link Unit. The queue of waiting commands is as it was. -/
def finish (s : State) (l : Lnk) (v : Env) (e : Ev) : State where
  toStore := e.toStore.driven v.phs
  toEnv := v
  lnk := l.takeAll e.offers
  pending := s.pending

/-- A field event: the input lines and the Time Base become `v`, the blocks act by `f` and then of themselves. -/
def event (v : Env) (f : Ev → Ev) (s : State) : State := finish s s.lnk v (f (Ev.begin v s.toStore)).conclude

end Sys2Proof.Machine
end

