-- ==== Sys2Proof/Machine/Motion.lean ====
section
/-! DEFINITION. What the chain's edges and the paternoster's timers do: encoder steps (R28, R44, R47, R51), index edges
(R29, R35, R36, R61), sill edges (R30, R35), the settle wait (R28), the start window (R44), the creep timer (R47), and the
survey timer and key (R37). -/
namespace Sys2Proof.Machine

namespace Ev

/-! ## Encoder steps -/

/-- The tracker counts a step (R28). -/
def countStep (e : Ev) : Ev :=
  e.setCht fun c => { c with position := c.position.map fun p => (p + 1) % c.settings.loopLength, settled := false, settleWait := e.timer 50 }

/-- First motion (R44). -/
def firstMotion (e : Ev) : Ev :=
  let e := e.setPnc fun p => { p with startTimer := none, startFaults := 0 }
  if e.pnc.purpose = .sweep then e.setPnc fun p => { p with state := .sweeping, sweepCount := 0 }
  else (e.setPnc fun p => { p with state := .running }).ended .pnStart .done .none []

/-- The sweep's loop is run: the creep to the best rest position (R51). -/
def loopDone (e : Ev) : Ev :=
  let e := e.setPnc fun p => { p with missCount := 0 }
  match e.sweepTarget with
  | some t => e.creepTo t
  | none => e.settle

/-- A step of the sweep (R51). -/
def sweepStep (e : Ev) : Ev :=
  let e := e.setPnc fun p => { p with sweepCount := p.sweepCount + 1 }
  if e.pnc.sweepCount = e.cht.settings.loopLength then e.loopDone else e

/-- The stop lead point of the target (R47). -/
def atLeadPoint (e : Ev) : Bool :=
  match e.cht.position, e.pnc.target with
  | some p, some t => distAhead e.cht.settings.loopLength p t == e.cht.settings.stopLead
  | _, _ => false

/-- The demand goes OFF at the stop lead point (R47). -/
def cutDemand (e : Ev) : Ev := e.setPnc fun p => { p with state := .settling, creepTimer := none }

/-- Paternoster Control takes a step (R44, R47, R51). -/
def stepPn (e : Ev) : Ev :=
  match e.pnc.state with
  | .starting => e.firstMotion
  | .sweeping => e.sweepStep
  | .creeping => e.when e.atLeadPoint cutDemand
  | _ => e

def encoderStep (e : Ev) : Ev := e.countStep.stepPn

/-- 500 ms without a step (R28). -/
def settleOut (e : Ev) : Ev :=
  e.when e.cht.settleWait.isSome (setCht fun c => { c with settled := true, settleWait := none })

/-! ## Index edges -/

/-- The position is known and farther from 0 than the index tolerance (R29). -/
def slips (e : Ev) : Bool :=
  e.cht.position.any fun p => decide (e.cht.settings.indexTol < circDist e.cht.settings.loopLength p 0)

/-- The survey is judged at its closing index (R36). -/
def judgeSurvey (s : Survey) (e : Ev) : Ev :=
  if s.succeeds e.cht then
    let e := e.setCht fun c => { c with landings := s.commit c.landings }
    let e := e.setCht fun c => { c with clearList := c.derive }
    (e.closeSurvey (.done e.cht.clearList.length)).endSurveyClaim
  else (e.closeSurvey (.failed (s.counts e.cht))).endSurveyClaim

/-- An index edge of a survey, the index check passed (R35, R36). -/
def indexSurvey (e : Ev) : Ev :=
  match e.cht.survey with
  | none => e
  | some s =>
    if s.recording then e.judgeSurvey s
    else e.setCht fun c => { c with survey := some { s with recording := true } }

/-- An index edge (R29, R35, R36, R61). -/
def indexEdge (e : Ev) : Ev :=
  if e.cht.settings.loopLength = 0 then e
  else
    let slip := e.slips
    let e := e.setCht fun c => { c with position := some 0 }
    if slip then e.estop .chainSlip
    else (e.indexSurvey).when (e.pnc.state == .creeping && e.pnc.target.isNone) indexFound

/-! ## Sill edges -/

/-- The list of one side of a landing. -/
def sillList (l : Fin 8) (side : Side) (e : Ev) : List Nat :=
  match side with
  | .up => e.cht.landings[l].up
  | .down => e.cht.landings[l].down

/-- A sill edge outside a survey (R30). The landing must be surveyed, as R26 asks of every landing that takes part in
sill-mismatch detection; R30 itself asks for its presence and for this side's list of N entries alone (log 61). -/
def checkSill (l : Fin 8) (side : Side) (p : Nat) (e : Ev) : Ev :=
  if !e.cht.settled && e.cht.surveyed e.cht.landings[l] && !e.cht.near (e.sillList l side) p then
    e.estop (.sillMismatch l)
  else e

/-- A sill edge (R30, R35). -/
def sillEdge (l : Fin 8) (side : Side) (e : Ev) : Ev :=
  match e.cht.position with
  | none => e
  | some p =>
    match e.cht.survey with
    | none => e.checkSill l side p
    | some s =>
      if s.recording && e.cht.landings[l].present then
        e.setCht fun c => { c with survey := some (s.edge l side p) }
      else e

/-! ## Timers and the key -/

/-- The start window runs out with no motion (R44). -/
def startOut (e : Ev) : Ev :=
  if e.pnc.state = .starting ∧ e.pnc.startTimer.isSome then
    let sweep := e.pnc.purpose == .sweep
    let e := e.setPnc fun p => { p with startFaults := p.startFaults + 1 }
    let e := e.restIn (if e.pnc.startFaults < 3 then e.haltState else .lockedOut)
    (e.ended .pnStart .ended .notReady []).when sweep (failSweep .notReady)
  else e

/-- The creep timer runs out (R47, R61). -/
def creepOut (e : Ev) : Ev :=
  e.when (e.pnc.state == .creeping && e.pnc.creepTimer.isSome) (estop .creepTimeout)

/-- The survey timer runs out (R37). -/
def surveyOut (e : Ev) : Ev :=
  if e.cht.survey.isSome && e.cht.surveyTimer.isSome then (e.abandonSurvey .timeout).estop .creepTimeout else e

/-- The COMMISSION key state (R21): going inactive abandons a survey (R37). -/
def keyTurned (active : Bool) (e : Ev) : Ev :=
  let e := e.setMsu fun u => { u with key := active }
  if active || e.cht.survey.isNone then e else (e.abandonSurvey .key).endSurveyClaim

end Ev

end Sys2Proof.Machine
end

