-- ==== Sys2Proof/Machine/Restart.lean ====
section
/-! DEFINITION. The restarts (R1, R22, R23, R65, R88, R104, R105, R126, R151, R181). -/
namespace Sys2Proof.Machine

/-- The line rate of the SPD1:0 straps (R174, log 25). -/
def LineRate.ofStraps (spd : BitVec 2) : LineRate :=
  match spd.toNat with
  | 0 => .b9600 | 1 => .b19200 | 2 => .b57600 | _ => .b115200

/-- The Link Unit after a restart: N-RESTARTED alone in its outbox (R181). -/
def Lnk.restarted (spd : BitVec 2) (k : RestartKind) : Lnk where
  rate := .ofStraps spd
  reception := none
  rxBuf := []
  outbox := [.notice (.restarted k)]
  held := []
  lost := false

/-- The reference found at a start (R152). -/
def Reference.ofCrystal (running : Bool) : Reference := if running then .crystal else .internal

/-- The Time Base at a power-on or cold restart (R152). -/
def Tmb.cold (crystal : Bool) : Tmb := { Tmb.reset with ref := .ofCrystal crystal, fault := !crystal }

/-- The Mode and Supply Unit's readings at a restart (R1). -/
def Msu.read (l : Lines) (u : Msu) : Msu :=
  { u with source := if l.mainsOk then .mains else .reserve, batteryLow := l.battLow, key := l.commission }

/-- The zones at a power-on or cold restart (R104). -/
def coldZones (zoneIn : BitVec 6) : Vector Zone 6 :=
  (List.finRange 6).foldl
    (fun v z => if zoneIn.getLsbD z.val then put v z ⟨true, 0, .alarmed, false⟩ else v) Fzu.reset.zones

/-- The store at a power-on or cold restart, before its claims (R1, R24, R39, R66, R89, R106, R138, R163). -/
def Store.cold (l : Lines) : Store :=
  { Store.reset with msu := Msu.reset.read l, fzu := { Fzu.reset with zones := coldZones l.zoneIn } }

/-- What the blocks read at a power-on or cold restart: the lines as they stand, every table empty (R23). -/
def Env.cold (l : Lines) : Env where
  lines := l
  tmb := .cold l.crystal
  phs := .reset

namespace Ev

/-- The fire condition, from the zone states, with its deadline (R104, R105). -/
def restartFire (e : Ev) : Ev :=
  let active := e.anyInFire
  e.setFzu fun f => { f with fire := active, deadline := e.deadlineFor active }

/-- A release treatment that leaves no shutter waiting spends the deadline at once (R104, R105). -/
def spendDeadline (e : Ev) : Ev :=
  e.when (e.fzu.fire && e.releaseWaitSet == 0) (setFzu fun f => { f with deadline := .spent })

/-- The alarm of a zone in a restart: N-ZONE, the release claim, the FIRE stamp (R91, R104, R105). -/
def restartZone (z : Fin 6) (prev : ZoneState) (e : Ev) : Ev :=
  let x := e.fzu.zones[z]
  let e := e.notice (.zone z prev x.state x.declared x.enabled (e.lines.zoneIn.getLsbD z.val) .restart)
  e.when (x.state == .alarmed) fun e => (e.releaseZone z).stamp stampFire z.val

/-- The bells and the player take the fire condition of the restart (R126, R151). -/
def restartSound (e : Ev) : Ev := e.when e.fzu.fire fun e => e.rebuildStanding.startPlayback

/-- A power-on or cold restart (R1, R104, R157). The previous state its N-ZONE gives an ALARMED zone is QUIET (log 42).
The zones act in number order, which settles the zone of the FIRE stamp (log 53). -/
def cold (e : Ev) : Ev :=
  let e := e.reportPower
  let e := e.restartFire
  let e := e.when e.onReserve startHold
  let e := e.forEach (List.finRange 6) fun z e => e.when (e.fzu.zones[z].state == .alarmed) (restartZone z .quiet)
  let e := e.spendDeadline.reportFire none
  (e.when (e.tmb.ref == .internal) (notice (.timebase .internal true))).restartSound

/-! ## The warm restart -/

/-- The Mode and Supply Unit at a warm restart (R1, R9, R23). -/
def warmMsu (e : Ev) : Ev :=
  let lost := e.msu.source == .mains && !e.lines.mainsOk
  let closing := e.msu.mode == .closing
  let e := e.setMsu (Msu.read e.lines)
  let e := e.when lost (stamp stampMains 0)
  (e.when closing (setMode .trading .restart)).reportPower

/-- The Chain Tracker at a warm restart (R24). -/
def warmCht (e : Ev) : Ev :=
  e.setCht fun c => { c with position := none, settled := false, settleWait := e.timer 50, survey := none, surveyTimer := none }

/-- Paternoster Control at a warm restart (R65). -/
def warmPnc (e : Ev) : Ev :=
  let e := (e.restIn .halted).setPnc fun p => { p with purpose := .normal, causes := .empty, sweepCount := 0, sweepClaimed := false }
  if e.pnc.startFaults = 3 then e.restIn .lockedOut
  else if e.msu.mode = .night then e.restIn .nightLock
  else if e.onReserve then e.restIn .powerStop
  else if e.causeActive then e.estopByInputs
  else e

/-- A station at a warm restart (R88): its state derived from its limits, and from its magnet held on or off. A grille
re-derived as CLOSED keeps a NOT_PROVEN in its fault set (log 55). -/
def rederived (s : Shutter) (openLim closedLim magnet : Bool) (now : Nat) : Shutter :=
  let base := { s.restIn .closed with obstr := 0 }
  let conflict (x : Shutter) := if openLim && closedLim then x.addFaults FaultKind.limitConflict else x
  match openLim, closedLim, s.kind with
  | true, false, .fire =>
    if magnet then { base with state := .opened } else { base with state := .opened }.released true now
  | true, false, .grille => { base with state := .opened }
  | false, true, _ => base
  | _, _, .fire => conflict { base.released false now with proving := false }
  | _, _, .grille => conflict { base with state := .haltedPart }

/-- A station re-derived, with the notices of a new state and a new fault (R80, R88). -/
def rederive (i : Fin 16) (e : Ev) : Ev :=
  match e.station i with
  | none => e
  | some s =>
    let new := rederived s (e.openLim i) (e.closedLim i) (e.out.outA.getLsbD i.val) e.now
    let added := new.faults &&& ~~~ s.faults
    (e.moveTo i s new .restart).when (added != 0) (notice (.shutterFault i added new.faults))

/-- A zone brought into line with its input (R105). -/
def alignZone (z : Fin 6) (e : Ev) : Ev :=
  let x := e.fzu.zones[z]
  e.setFzu fun f => { f with zones := put f.zones z (if e.lines.zoneIn.getLsbD z.val then zoneOn x else zoneOff x) }

/-- The reserve-hold timer at a warm restart (R105). -/
def warmHold (e : Ev) : Ev :=
  if e.onReserve then (if e.fzu.hold = .expired then e else e.startHold)
  else e.setFzu fun f => { f with hold := .stopped }

/-- The Fire Zone Unit at a warm restart (R105) and the treatments it claims (R84, R86, R88). The deadline is judged by what
those treatments leave; the reserve-hold timer and its release come after it. The zones act in number order, which settles
the zone of the FIRE stamp (log 53). -/
def warmFzu (e : Ev) : Ev :=
  let old := e.fzu.zones
  let e := e.forEach (List.finRange 6) alignZone
  let e := e.restartFire
  let e := e.forEach (List.finRange 6) fun z e => e.when (e.fzu.zones[z] != old[z]) (restartZone z old[z].state)
  let e := e.forEach (List.finRange 6) fun z e => e.when (e.fzu.zones[z].state != .quiet) (releaseZone z)
  let e := e.when e.fzu.fire treatGrilles
  (if e.fzu.fire then e.spendDeadline else e.forgetFireWaits).warmHold

/-- The Closing Programme Unit at a warm restart (R163, R173). -/
def warmCpu (e : Ev) : Ev := (e.setCpu fun c => { c with run := none, prev := none }).renewStart

/-- The Bell Exchange and the Announcement Player at a warm restart, before the fire condition is handed to them (R126,
R151). -/
def warmSound (e : Ev) : Ev :=
  let e := e.setBlx fun b => { b with queue := [], ringers := Vector.replicate 3 .idle, nextNumber := 1, nextSeq := 0 }
  (e.setAnp fun a => { a.silent with queue := [], skip := .none, next := 1, script := ⟨[], false, 0⟩ }).restartSound

/-- A warm restart: each block in turn. The battery-low release is handed over when the source has become RESERVE or
the battery-low flag set at the restart (R16, log 16). -/
def warm (e : Ev) : Ev :=
  let wasReserve := e.onReserve
  let wasLow := e.msu.batteryLow
  let e := e.warmMsu.warmCht.warmCpu.warmPnc
  let e := (e.forEach (List.finRange 16) rederive).warmFzu
  let e := e.when (e.onReserve && e.msu.batteryLow && !(wasReserve && wasLow)) (reserveRelease .batteryLow)
  (e.reportFire none).warmSound

/-- A restart reports the paternoster's state with previous state HALTED (R65). -/
def reported (e : Ev) : Ev := { e with pn0 := .halted, pnForce := true }

end Ev

/-- A restart of a kind (R22, R23, R181). The queue of waiting commands is as it was. -/
def restart (k : RestartKind) (s : State) : State :=
  let l := Lnk.restarted s.lines.spd k
  match k with
  | .warm => finish s l s.toEnv (Ev.begin s.toEnv s.toStore).warm.reported.conclude
  | _ =>
    let v := Env.cold s.lines
    finish s l v (Ev.begin v (Store.cold s.lines)).cold.reported.conclude

end Sys2Proof.Machine
end

