-- ==== Sys2Proof/Machine/StoreOrders.lean ====
section
/-! DEFINITION. The orders of the Mode and Supply Unit (01): COMMENCE, RESTART, WAKE, CLEAR-WAKE, FORCE-NIGHT, PERMITS-SET;
and what every order's handler shares. -/
namespace Sys2Proof.Machine

/-- The body has the length its code calls for (R183). -/
def formed (o : RxOrder) (n : Nat) : Bool × Reason := (o.body.length == n, .form)

/-- DONE after an event of the blocks. -/
def OrderResult.did (e e' : Ev) (data : List Byte) : OrderResult := .acted .done none data e.toEnv e'

/-- DONE after a change of the store that no other block acts on. -/
def OrderResult.kept (e e' : Ev) (data : List Byte) : OrderResult := .quiet e.toEnv e'.toStore [] data

/-- DONE after a change of what the blocks read that no block acts on. -/
def OrderResult.keptEnv (v : Env) (e : Ev) (data : List Byte) : OrderResult := .quiet v e.toStore [] data

/-- STARTED, with the operation a held answer waits for (R178). -/
def OrderResult.began (e e' : Ev) (op : HeldOp) (data : List Byte) : OrderResult :=
  .acted .started (some op) data e.toEnv e'

namespace Ev

/-- The COMMISSION key (R21). -/
def keyed (e : Ev) : List (Bool × Reason) := [(e.msu.key, .locked)]

/-- The COMMISSION key, the fire condition and the drive demand (R21). -/
def keyedAtRest (e : Ev) : List (Bool × Reason) := [(e.msu.key, .locked), (!e.fzu.fire, .fire), (e.demandOff, .moving)]

/-- A present shutter names a landing whose record is not present (R2). -/
def linkMissing (e : Ev) : Bool :=
  e.someShutter fun sh => sh.landing.any fun l => !e.cht.landings[l].present

/-- The fire settings name a script slot that holds no items (R2). -/
def fireScriptEmpty (e : Ev) : Bool := e.fzu.fireScript.any fun k => e.anp.scripts[k].items.isEmpty

end Ev

/-- COMMENCE (R2). -/
def orderCommence (o : RxOrder) (e : Ev) : OrderResult :=
  .after [formed o 0, (e.msu.mode == .setup, .mode)]
    (if e.cht.settings.loopLength = 0 then .refused .range (Enc.byte 1)
    else if e.cht.settings.cars = 0 then .refused .range (Enc.byte 2)
    else if e.linkMissing then .refused .range (Enc.byte 3)
    else if e.fireScriptEmpty then .refused .range (Enc.byte 4)
    else .did e (e.setMode .trading .commence) [])

/-- RESTART (R22). -/
def orderRestart (o : RxOrder) (e : Ev) : OrderResult :=
  .after [formed o 1, (Body.within 1 2 (Body.byte o.body 0), .form), (Body.byte o.body 0 != 1 || e.msu.key, .locked)]
    (.restart (if Body.byte o.body 0 = 1 then .cold else .warm))

/-- WAKE (R10, R13). -/
def orderWake (o : RxOrder) (e : Ev) : OrderResult :=
  .after [formed o 0, (e.msu.mode == .closing || e.msu.mode == .night, .mode)] (.did e (e.latch hostWake) [])

/-- CLEAR-WAKE (R14). -/
def orderClearWake (o : RxOrder) (e : Ev) : OrderResult :=
  .after [formed o 0] (.kept e (e.setMsu fun u => { u with wake := 0 }) (Enc.set8 e.msu.wake))

/-- FORCE-NIGHT (R6). -/
def orderForceNight (o : RxOrder) (e : Ev) : OrderResult :=
  .after
    [formed o 0, (e.msu.mode == .trading || e.msu.mode == .closing, .mode), (!e.fzu.fire, .fire),
      (e.demandOff && e.pnc.state != .settling, .moving)]
    (.did e ((e.when (e.msu.mode == .closing) (Ev.cutRun .forceNight)).enterNight .forceNight) [])

/-- PERMITS-SET (R17): bells, announcements, grilles. -/
def orderPermitsSet (o : RxOrder) (e : Ev) : OrderResult :=
  .after [formed o 3, (Body.isFlag o.body 0 && Body.isFlag o.body 1 && Body.isFlag o.body 2, .range)]
    (let e' := e.loadPermits (Body.flag o.body 0) (Body.flag o.body 1) (Body.flag o.body 2)
     .did e e' (Enc.flag e'.msu.bellPermit ++ Enc.flag e'.msu.announcePermit ++ Enc.flag e'.msu.grillePermit))

end Sys2Proof.Machine
end

