-- ==== Sys2Proof/Machine/ChainOrders.lean ====
section
/-! DEFINITION. The orders of the Chain Tracker (02): CHAIN-SET, LANDING-SET, LANDING-READ, CLEAR-DERIVE, CLEAR-READ, SURVEY. -/
namespace Sys2Proof.Machine

/-- The six chain settings as an answer carries them (R25, R27, log 3). -/
def Enc.settings (s : ChainSettings) : List Byte :=
  word s.loopLength ++ byte s.cars ++ byte s.levelTol ++ byte s.indexTol ++ byte s.stopLead ++ byte s.creepTimeout

/-- The chain settings of a CHAIN-SET body (log 3). -/
def Body.settings (b : Body) : ChainSettings := ⟨word b 0, byte b 2, byte b 3, byte b 4, byte b 5, byte b 6⟩

/-- Every setting lies in its range (R24, R25). -/
def ChainSettings.valid (s : ChainSettings) : Bool :=
  Body.within 512 16384 s.loopLength && Body.within 1 24 s.cars && Body.within 1 32 s.levelTol &&
    Body.within 1 64 s.indexTol && Body.within 0 64 s.stopLead && Body.within 10 120 s.creepTimeout

namespace Cht

/-- Every sill list and the clear list emptied; present flags are kept (R25). -/
def unsurveyed (c : Cht) : Cht :=
  { c with landings := c.landings.map fun l => ⟨l.present, [], []⟩, clearList := [] }

/-- New chain settings and what their changes bring (R25). -/
def applySettings (new : ChainSettings) (c : Cht) : Cht :=
  let old := c.settings
  let c := { c with settings := new }
  if new.loopLength ≠ old.loopLength then { c.unsurveyed with position := none }
  else if new.cars ≠ old.cars then c.unsurveyed
  else if new.levelTol ≠ old.levelTol then { c with clearList := c.derive }
  else c

end Cht

/-- CHAIN-SET (R25). -/
def orderChainSet (o : RxOrder) (e : Ev) : OrderResult :=
  .after (formed o 7 :: e.keyedAtRest ++ [((Body.settings o.body).valid, .range)])
    (.did e (e.setCht (Cht.applySettings (Body.settings o.body))) (Enc.settings (Body.settings o.body)))

/-- A list in strictly ascending order. -/
def strictlyAscending : List Nat → Bool
  | x :: y :: ys => decide (x < y) && strictlyAscending (y :: ys)
  | _ => true

/-- A sill list LANDING-SET may load (R26). -/
def sillListValid (s : ChainSettings) (l : List Nat) : Bool :=
  l.isEmpty || (decide (0 < s.loopLength) && decide (0 < s.cars) && decide (l.length = s.cars) && strictlyAscending l &&
    l.all fun p => decide (p < s.loopLength))

/-- The landing record of a LANDING-SET body: the flag, then each list with its count before it (log 3). -/
def Body.landing (b : Body) : Landing :=
  let n := byte b 2
  ⟨flag b 1, words b 3 n, words b (4 + 2 * n) (byte b (3 + 2 * n))⟩

/-- The length a LANDING-SET body's own counts call for (R183). -/
def Body.landingLength (b : Body) : Nat := 4 + 2 * byte b 2 + 2 * byte b (3 + 2 * byte b 2)

/-- LANDING-SET (R26). -/
def orderLandingSet (o : RxOrder) (e : Ev) : OrderResult :=
  let l := Body.landing o.body
  .after ((decide (4 ≤ o.body.length) && o.body.length == Body.landingLength o.body, .form) :: e.keyedAtRest)
    (match Body.fin 8 o.body 0 with
      | none => .refused .range []
      | some i =>
        .after
          [(Body.isFlag o.body 1 && (l.present || (l.up.isEmpty && l.down.isEmpty)) &&
              sillListValid e.cht.settings l.up && sillListValid e.cht.settings l.down, .range)]
          (.did e (e.setCht fun c => { c with landings := put c.landings i l, clearList := [] }) []))

/-- A list of positions with its count before it (log 3). -/
def Enc.positions (ps : List Nat) : List Byte := byte ps.length ++ ps.flatMap word

/-- LANDING-READ (R27). -/
def orderLandingRead (o : RxOrder) (e : Ev) : OrderResult :=
  .after [formed o 1]
    (match Body.fin 8 o.body 0 with
      | none => .refused .range []
      | some i =>
        let l := e.cht.landings[i]
        .report (Enc.flag l.present ++ Enc.flag (e.cht.surveyed l) ++ Enc.positions l.up ++ Enc.positions l.down))

/-- CLEAR-DERIVE (R30, R31). -/
def orderClearDerive (o : RxOrder) (e : Ev) : OrderResult :=
  .after (formed o 0 :: e.keyedAtRest)
    (let e' := e.setCht fun c => { c with clearList := c.derive }
     .did e e' (Enc.byte e'.cht.clearList.length))

/-- The survey phase (R183). -/
def Cht.phase (c : Cht) : Nat :=
  match c.survey with
  | none => 0
  | some s => if s.recording then 2 else 1

/-- CLEAR-READ (R27). -/
def orderClearRead (o : RxOrder) (e : Ev) : OrderResult :=
  .after [formed o 0]
    (.report (Enc.settings e.cht.settings ++ Enc.position e.cht.position ++ Enc.flag e.cht.settled ++
      Enc.set8 e.clearNow ++ Enc.byte e.cht.clearList.length ++
      (e.cht.clearList.flatMap fun x => Enc.word x.pos ++ Enc.set8 x.set) ++
      Enc.position (e.cht.bestRest.map ClearEntry.pos) ++ Enc.byte e.cht.phase))

/-- The start conditions of a survey (R34). -/
def Ev.surveyChecks (e : Ev) : List (Bool × Reason) :=
  [(e.msu.key, .locked), (e.cht.survey.isNone, .busy), (e.msu.mode == .setup || e.msu.mode == .trading, .mode),
   (!e.fzu.fire, .fire), (!e.onReserve, .power),
   (decide (0 < e.cht.settings.loopLength) && decide (0 < e.cht.settings.cars) && e.cht.someLanding, .range),
   (e.pnc.state == .halted, .state), (e.allLinkedOpen, .state), (e.lines.drvReady, .notReady)]

/-- A survey begins (R34, R45). -/
def Ev.beginSurvey (e : Ev) : Ev :=
  (e.setCht fun c => { c with survey := some .start, surveyTimer := e.timer (400 * c.settings.creepTimeout) }).setPnc
    fun p => { p with state := .survey, purpose := .normal, target := none, missCount := 0 }

/-- SURVEY (R34). -/
def orderSurvey (o : RxOrder) (e : Ev) : OrderResult :=
  .after (formed o 0 :: e.surveyChecks) (.began e e.beginSurvey .survey [])

end Sys2Proof.Machine
end

