-- ==== Sys2Proof/Machine/PaterOrders.lean ====
section
/-! DEFINITION. The orders of Paternoster Control (03): PN-START, PN-STOP, PN-SWEEP, PN-NIGHT-LOCK, PN-HALT, PN-RESET,
PN-UNLOCK, PN-READ. -/
namespace Sys2Proof.Machine

/-- The checks of PN-START (R43). -/
def Ev.startChecks (e : Ev) : List (Bool × Reason) :=
  [(e.pnc.state == .halted || e.pnc.state == .nightLock, .state),
   (e.msu.mode == .trading || e.msu.mode == .closing, .mode), (!e.fzu.fire, .fire), (!e.onReserve, .power),
   (e.lines.drvReady, .notReady), (e.allLinkedOpen, .state), (!e.causeActive, .state)]

/-- PN-START (R43). -/
def orderPnStart (o : RxOrder) (e : Ev) : OrderResult :=
  .after (formed o 0 :: e.startChecks)
    (.began e (e.setPnc fun p => { p with state := .starting, purpose := .normal, startTimer := e.timer 300 }) .pnStart [])

/-- A normal stop aimed at the nearest entry, or SETTLING with no target (R42, R46). -/
def Ev.normalStop (e : Ev) : Ev :=
  let e := e.newStop .normal
  match e.cht.position.bind e.nearest with
  | some t => e.creepTo t
  | none => e.settle

/-- PN-STOP (R46). -/
def orderPnStop (o : RxOrder) (e : Ev) : OrderResult :=
  .after [formed o 0]
    (match e.pnc.state with
      | .running => .began e e.normalStop .pnStop []
      | .sweeping => .began e (e.failSweep .cancelled).normalStop .pnStop []
      | .starting =>
        .began e (((e.ended .pnStart .ended .cancelled []).when (e.pnc.purpose == .sweep) (Ev.failSweep .cancelled)).newStop
          .normal).settle .pnStop []
      | .creeping | .settling =>
        match e.pnc.purpose with
        | .normal => .began e e .pnStop []
        | .sweep => .began e ((e.failSweep .cancelled).setPnc fun p => { p with purpose := .normal }) .pnStop []
        | .fire => .refused .fire []
      | .survey => .began e ((e.abandonSurvey .host).newStop .normal).settle .pnStop []
      | .halted | .nightLock => .report []
      | .held => .refused .fire []
      | .estop | .lockedOut | .powerStop => .refused .state [])

/-- PN-SWEEP (R50). -/
def orderPnSweep (o : RxOrder) (e : Ev) : OrderResult :=
  .after [formed o 0]
    (match e.requestSweep false with
      | .refused r => .refused r []
      | .done => .report []
      | .started e' => .began e e' .pnSweep [])

/-- PN-NIGHT-LOCK (R52). -/
def orderPnNightLock (o : RxOrder) (e : Ev) : OrderResult :=
  .after [formed o 0]
    (match e.pnc.state with
      | .halted => .did e (e.restIn .nightLock) []
      | .nightLock => .report []
      | _ => .refused .state [])

/-- PN-HALT (R54). -/
def orderPnHalt (o : RxOrder) (e : Ev) : OrderResult :=
  .after [formed o 0, (e.pnc.state != .lockedOut && e.pnc.state != .powerStop, .state)] (.did e (e.estop .host) [])

/-- PN-RESET (R55). -/
def orderPnReset (o : RxOrder) (e : Ev) : OrderResult :=
  .after [formed o 0, (e.pnc.state == .estop, .state), (!e.causeActive, .state)]
    (.did e ((e.restIn e.haltState).setPnc fun p => { p with causes := .empty }) [])

/-- PN-UNLOCK (R56). -/
def orderPnUnlock (o : RxOrder) (e : Ev) : OrderResult :=
  .after (formed o 0 :: e.keyed ++ [(e.pnc.state == .lockedOut, .state), (!e.causeActive, .state)])
    (.did e ((e.restIn e.haltState).setPnc fun p => { p with startFaults := 0 }) [])

/-- PN-READ (R64); the levels of CORD0-7 and of GUARD0-7 are a set of landings each (log 54). -/
def orderPnRead (o : RxOrder) (e : Ev) : OrderResult :=
  .after [formed o 0]
    (.report (Enc.byte e.pnc.state.code ++ Enc.byte e.demand.code ++ Enc.byte e.pnc.purpose.code ++
      Enc.position e.pnc.target ++ Enc.byte e.pnc.missCount ++ Enc.byte e.pnc.startFaults ++ Enc.causeSet e.pnc.causes ++
      Enc.flag e.pnc.creepPending ++ Enc.word e.pnc.sweepCount ++ Enc.position e.cht.position ++
      Enc.flag e.lines.drvReady ++ Enc.flag e.lines.drvFault ++ Enc.set8 e.lines.cords ++ Enc.set8 e.lines.guards))

end Sys2Proof.Machine
end

