-- ==== Sys2Proof/Machine/ShutterOrders.lean ====
section
/-! DEFINITION. The orders of Shutter Control (04): SHUTTER-SET, SHUTTER-READ, SHUTTER-CLOSE, SHUTTER-RAISE, SHUTTER-STOP,
SHUTTER-CLEAR. -/
namespace Sys2Proof.Machine

/-- The configured record with its present flag before it; an absent record's items are carried as 0 (log 3). -/
def Enc.record (s : Option Shutter) : List Byte :=
  match s with
  | none => flag false ++ List.replicate 7 0
  | some s => flag true ++ byte s.kind.code ++ optByte (s.zone.map Fin.val) ++ optByte (s.landing.map Fin.val) ++
      flag s.night ++ flag s.openOnFire ++ byte s.descentTimeout ++ byte s.raiseTimeout

/-- The state, 0xFF for an absent record (R183). -/
def Enc.shutterState (s : Option Shutter) : List Byte := optByte (s.map fun s => s.state.code)

/-- A proof record with its mark before it (log 3). -/
def Enc.proof (p : Option Proof) : List Byte :=
  match p with
  | none => flag false ++ List.replicate 10 0
  | some p => flag true ++ calTime p.time ++ word p.ran

/-- A timeout field: 0 takes the default of the kind (R67). -/
def timeoutOr (dflt lo hi x : Nat) : Option Nat := if x = 0 then some dflt else if Body.within lo hi x then some x else none

/-- The new record of a SHUTTER-SET with the present flag set, in the state its limits give (R67). -/
def Shutter.define (kind : ShutterKind) (zone : Option (Fin 6)) (landing : Option (Fin 8)) (night openOnFire : Bool)
    (descent raise : Nat) (openLim closedLim : Bool) (now : Nat) : Shutter :=
  let s : Shutter := { kind := kind, zone := zone, landing := landing, night := night, openOnFire := openOnFire, descentTimeout := descent, raiseTimeout := raise, state := .closed, faults := if openLim && closedLim then FaultKind.notProven ||| FaultKind.limitConflict else FaultKind.notProven, obstr := 0, proof := none, proving := false, retryWait := false, descent := .stopped, magnetCheck := none, edgeClear := none, raiseTimer := none, upFire := false, fireWait := false, supplyWait := false }
  match openLim, closedLim, kind with
  | true, false, _ => { s with state := .opened }
  | false, true, _ => s
  | _, _, .fire => { s with state := .descending, descent := .running now 0 }
  | _, _, .grille => { s with state := .haltedPart }

/-- The record a SHUTTER-SET body asks for: none when an item is out of range (R67). -/
def Body.shutter (b : Body) (openLim closedLim : Bool) (now : Nat) : Option Shutter :=
  match shutterKind b 2, optFin 6 b 3, optFin 8 b 4 with
  | some kind, some zone, some landing =>
    let fire := kind == .fire
    match timeoutOr (if fire then 20 else 60) 5 120 (byte b 7), timeoutOr (if fire then 90 else 60) 10 180 (byte b 8) with
    | some d, some r =>
      if isFlag b 1 && isFlag b 5 && isFlag b 6 && !(fire && (flag b 5 || flag b 6)) then
        some (Shutter.define kind zone landing (flag b 5) (flag b 6) d r openLim closedLim now)
      else none
    | _, _ => none
  | _, _, _ => none

/-- The shutter is DESCENDING, RAISING or OBSTRUCTED, so that SHUTTER-SET is refused with BUSY (R67). -/
def Ev.stationBusy (i : Fin 16) (e : Ev) : Bool := (e.station i).any fun s => s.state.barring

/-- A record defined or redefined, with its notices (R67, R68, R80). The kinds added are those the replaced record's
fault set lacked: a redefinition that brings none offers no N-SHUTTER-FAULT (log 23). -/
def Ev.defineStation (i : Fin 16) (s : Shutter) (e : Ev) : Ev :=
  let added := s.faults &&& ~~~ ((e.station i).map Shutter.faults).getD 0
  ((e.putStation i (some s)).notice (.shutterState i none s.state .define)).when (added != 0)
    (Ev.notice (.shutterFault i added s.faults))

/-- SHUTTER-SET (R67): the answer carries the new record and its state; of a removal R67 says nothing, and the model
answers an absent record in state 0xFF (log 41). -/
def orderShutterSet (o : RxOrder) (e : Ev) : OrderResult :=
  .after (formed o 9 :: e.keyedAtRest)
    (match Body.fin 16 o.body 0 with
      | none => .refused .range []
      | some i =>
        match Body.shutter o.body (e.openLim i) (e.closedLim i) e.now with
        | none => .refused .range []
        | some s =>
          .after [(!e.stationBusy i, .busy)]
            (let e' := if Body.flag o.body 1 then e.defineStation i s else e.putStation i none
             .did e e' (Enc.record (e'.station i) ++ Enc.shutterState (e'.station i))))

/-- SHUTTER-READ (R68). -/
def orderShutterRead (o : RxOrder) (e : Ev) : OrderResult :=
  .after [formed o 1]
    (match Body.fin 16 o.body 0 with
      | none => .refused .range []
      | some i =>
        let s := e.station i
        .report (Enc.record s ++ Enc.shutterState s ++ Enc.set8 ((s.map Shutter.faults).getD 0) ++
          Enc.byte ((s.map Shutter.obstr).getD 0) ++ Enc.proof (s.bind Shutter.proof) ++
          Enc.flag (s.any Shutter.proving) ++ Enc.flag (s.any Shutter.retryWait) ++
          Enc.word ((s.map fun s => s.descentLeft e.now).getD 0) ++ Enc.flag (e.openLim i) ++ Enc.flag (e.closedLim i) ++
          Enc.flag (e.edgeActive i) ++ Enc.flag (e.out.outA.getLsbD i.val) ++ Enc.flag (e.out.outB.getLsbD i.val)))

/-- The present shutter an order names, with its station (R76, R80, R81, R82). -/
def withShutter (o : RxOrder) (e : Ev) (k : Fin 16 → Shutter → OrderResult) : OrderResult :=
  match Body.fin 16 o.body 0 with
  | none => .refused .range []
  | some i =>
    match e.station i with
    | none => .refused .range []
    | some s => k i s

/-- SHUTTER-CLOSE (R81). -/
def orderShutterClose (o : RxOrder) (e : Ev) : OrderResult :=
  .after [formed o 1]
    (withShutter o e fun i s =>
      match e.requestClose i s .order with
      | .refused r => .refused r []
      | .done => .report []
      | .started e' => .began e e' (.shutterClose i) [])

/-- SHUTTER-RAISE (R82). -/
def orderShutterRaise (o : RxOrder) (e : Ev) : OrderResult :=
  .after [formed o 1]
    (withShutter o e fun i s =>
      if s.state = .opened then .report []
      else .after (e.raiseChecks i s) (.began e (e.raise i s) (.shutterRaise i) []))

/-- SHUTTER-STOP (R76). -/
def orderShutterStop (o : RxOrder) (e : Ev) : OrderResult :=
  .after [formed o 1]
    (withShutter o e fun i s =>
      .after [(s.kind == .grille, .state)]
        (if s.state = .descending ∨ s.state = .raising then .did e (e.haltGrille i s .order .cancelled) []
        else .report []))

/-- The kinds SHUTTER-CLEAR leaves in place (R80). -/
def Ev.stickyFaults (i : Fin 16) (s : Shutter) (e : Ev) : BitVec 8 :=
  FaultKind.notProven ||| (if e.bothLimits i then FaultKind.limitConflict else 0) |||
    (if s.state = .descending ∧ e.openLim i then FaultKind.magnetStuck else 0) |||
    (if s.state = .obstructed ∧ s.obstr = 3 then FaultKind.obstructedRepeat else 0)

/-- SHUTTER-CLEAR (R80). -/
def orderShutterClear (o : RxOrder) (e : Ev) : OrderResult :=
  .after [formed o 2]
    (withShutter o e fun i s =>
      let s' := s.dropFaults (Body.set8 o.body 1 &&& ~~~ e.stickyFaults i s)
      .kept e (e.putStation i (some s')) (Enc.set8 s'.faults))

end Sys2Proof.Machine
end

