-- ==== Sys2Proof/Machine/FireOrders.lean ====
section
/-! DEFINITION. The orders of the Fire Zone Unit (05): ZONE-SET, ZONE-READ, ZONE-DECLARE, ZONE-RESET, ZONE-DISABLE,
ZONE-ENABLE, FIRE-SET. -/
namespace Sys2Proof.Machine

/-- The zone an order names in its first byte; a number above 5 is refused with RANGE (R92-R95, R99). -/
def withZone (o : RxOrder) (f : Fin 6 → OrderResult) : OrderResult :=
  match Body.fin 6 o.body 0 with
  | some z => f z
  | none => .refused .range []

/-- The zone is in fire (R89). -/
def Zone.inFire (z : Zone) : Bool := z.state != .quiet

/-- A zone's new bell-line set, handed to the Bell Exchange when the zone is in fire (R95). -/
def Ev.loadZoneLines (z : Fin 6) (l : BitVec 10) (e : Ev) : Ev :=
  let e := e.setFzu fun f => { f with zones := put f.zones z { f.zones[z] with lines := l } }
  e.when e.fzu.zones[z].inFire rebuildStanding

/-- ZONE-SET (R95). -/
def orderZoneSet (o : RxOrder) (e : Ev) : OrderResult :=
  .after (formed o 3 :: e.keyed)
    (withZone o fun z =>
      match Body.lines o.body 1 with
      | none => .refused .range []
      | some l =>
        let e' := e.loadZoneLines z l
        if e.fzu.zones[z].inFire then .did e e' (Enc.set16 l) else .kept e e' (Enc.set16 l))

/-- The five fire settings as FIRE-SET lists them (R97, log 3). -/
def Enc.fireSettings (f : Fzu) : List Byte :=
  byte f.clearanceWait ++ byte f.reserveHold ++ optByte (f.fireScript.map Fin.val) ++ bellCode f.alertCode ++
    byte f.fireRepeat

/-- The clearance deadline: its state and the milliseconds left (R99). -/
def Enc.deadline (now : Nat) : Deadline → List Byte
  | .cleared => byte 0 ++ word 0
  | .running x => byte 1 ++ word ((x - now) * 10)
  | .spent => byte 2 ++ word 0

/-- The reserve-hold timer: its state and the whole seconds left, rounded down (R99, log 43). -/
def Enc.hold (now : Nat) : Hold → List Byte
  | .stopped => byte 0 ++ word 0
  | .running x => byte 1 ++ word ((x - now) / 100)
  | .expired => byte 2 ++ word 0

/-- The record of a zone and the level of its input (R99). -/
def Enc.zone (z : Zone) (level : Bool) : List Byte :=
  flag z.enabled ++ set16 z.lines ++ byte z.state.code ++ flag z.declared ++ flag level

/-- ZONE-READ (R99). -/
def orderZoneRead (o : RxOrder) (e : Ev) : OrderResult :=
  .after [formed o 1]
    (withZone o fun z =>
      .report (Enc.zone e.fzu.zones[z] (e.lines.zoneIn.getLsbD z.val) ++ Enc.flag e.fzu.fire ++ Enc.set8 e.alarmed ++
        Enc.set8 e.standing ++ Enc.deadline e.now e.fzu.deadline ++ Enc.hold e.now e.fzu.hold ++
        Enc.fireSettings e.fzu))

/-- ZONE-DECLARE (R92). -/
def orderZoneDeclare (o : RxOrder) (e : Ev) : OrderResult :=
  .after [formed o 1]
    (withZone o fun z =>
      let x := e.fzu.zones[z]
      if x.enabled then
        (if x.state = .alarmed ∧ x.declared = true then .report []
        else .did e (e.changeZone z { x with state := .alarmed, declared := true } .declare) [])
      else .refused .state [])

/-- ZONE-RESET (R93). -/
def orderZoneReset (o : RxOrder) (e : Ev) : OrderResult :=
  .after [formed o 1]
    (withZone o fun z =>
      let x := e.fzu.zones[z]
      let reset := OrderResult.did e (e.changeZone z { x with state := .quiet, declared := false } .reset) []
      match x.state with
      | .standing => reset
      | .alarmed => if x.declared && !e.lines.zoneIn.getLsbD z.val then reset else .refused .state []
      | .quiet => .refused .state [])

/-- ZONE-DISABLE (R94). -/
def orderZoneDisable (o : RxOrder) (e : Ev) : OrderResult :=
  .after (formed o 1 :: e.keyed)
    (withZone o fun z =>
      let x := e.fzu.zones[z]
      if x.enabled then
        (if x.state = .quiet then .did e (e.changeZone z { x with enabled := false } .disable) [] else .refused .state [])
      else .report [])

/-- A zone put back in service with its input as it stands (R94). -/
def Zone.enabledWith (z : Zone) (level : Bool) : Zone :=
  if level then { z with enabled := true, state := .alarmed, declared := false } else { z with enabled := true }

/-- ZONE-ENABLE (R94). -/
def orderZoneEnable (o : RxOrder) (e : Ev) : OrderResult :=
  .after (formed o 1 :: e.keyed)
    (withZone o fun z =>
      let x := e.fzu.zones[z]
      if x.enabled then .report []
      else .did e (e.changeZone z (x.enabledWith (e.lines.zoneIn.getLsbD z.val)) .enable) [])

/-- FIRE-SET (R97). -/
def orderFireSet (o : RxOrder) (e : Ev) : OrderResult :=
  let b := o.body
  .after (formed o 8 :: e.keyed ++
      [(Body.within 2 60 (Body.byte b 0) && Body.within 0 30 (Body.byte b 1) && Body.within 10 120 (Body.byte b 7), .range)])
    (match Body.optFin 16 b 2, Body.bellCode b 3 with
      | some script, some code =>
        let e' := e.setFzu fun f =>
          { f with clearanceWait := Body.byte b 0, reserveHold := Body.byte b 1, fireScript := script, alertCode := code, fireRepeat := Body.byte b 7 }
        .kept e e' (Enc.fireSettings e'.fzu)
      | _, _ => .refused .range [])

end Sys2Proof.Machine
end

