-- ==== Sys2Proof/Machine/BellOrders.lean ====
section
/-! DEFINITION. The orders of the Bell Exchange (06): BELL-SET, CALL-POST, CALL-CANCEL, CALL-READ. -/
namespace Sys2Proof.Machine

/-- The three bell settings (R108, log 3). -/
def Enc.bellSettings (b : Blx) : List Byte := set16 b.present ++ byte b.gap ++ byte b.window

/-- New bell settings; a change of the present lines under fire recomputes the standing calls (R108, R122). -/
def Ev.loadBells (present : BitVec 10) (gap window : Nat) (e : Ev) : Ev :=
  let changed := present != e.blx.present
  let e := e.setBlx fun b => { b with present := present, gap := gap, window := window }
  e.when (changed && e.fzu.fire) rebuildStanding

/-- BELL-SET (R108). -/
def orderBellSet (o : RxOrder) (e : Ev) : OrderResult :=
  let gap := Body.byte o.body 2
  let window := Body.byte o.body 3
  .after [formed o 4]
    (match Body.lines o.body 0 with
      | none => .refused .range []
      | some present =>
        .after
          [(present != 0 && Body.within 2 30 gap && Body.within 5 60 window, .range),
           (present == e.blx.present || e.blx.calls.isEmpty, .busy)]
          (let e' := e.loadBells present gap window
           .did e e' (Enc.bellSettings e'.blx)))

/-- The post of a CALL-POST body; none when a field lies outside what its type can hold (R183, R184). -/
def Body.post (b : Body) (heldRef : Bool) : Option Post :=
  let flags := byte b 8
  match bellCode b 0, lines b 4, callClass b 6 with
  | some code, some l, some cls =>
    if flags ≤ 3 then
      some ⟨code, l, cls, byte b 7, decide (flags % 2 = 1), decide (2 ≤ flags), .host, heldRef⟩
    else none
  | _, _, _ => none

/-- CALL-POST (R111, R112). -/
def orderCallPost (o : RxOrder) (e : Ev) : OrderResult :=
  .after [formed o 9]
    (match Body.post o.body o.held with
      | none => .refused .range []
      | some p =>
        match e.postCall p with
        | .refused r => .refused r []
        | .merged n e' => .acted .merged none (Enc.byte n) e.toEnv e'
        | .admitted n e' => .began e e' (.call n) (Enc.byte n))

/-- CALL-CANCEL (R119). -/
def orderCallCancel (o : RxOrder) (e : Ev) : OrderResult :=
  .after [formed o 1]
    (match e.cancelCall (Body.byte o.body 0) with
      | some e' => .did e e' []
      | none => .refused .range [])

/-- The call a ringer holds, as an answer carries it (R183). -/
def Enc.ringing : Option Ringing → List Byte
  | none => word 0x0000
  | some (.ordinary c) => word c.number
  | some .evac => word 0x0100
  | some .alert => word 0x0200

/-- One ringer: state, call, lines, and the time left (R125) in 10 ms units (log 46). -/
def Enc.ringer (now : Nat) (r : Ringer) : List Byte :=
  byte r.state.code ++ ringing r.held ++ set16 r.lines ++ word (r.timer.left now)

/-- A standing call: whether it is present, and its lines (R125). -/
def Enc.standingCall (b : Blx) (k : Ringing) : List Byte :=
  match b.standing k with
  | some r => flag true ++ set16 b.ringers[r].lines
  | none => flag false ++ word 0

/-- One ordinary call (R125, log 3); the last byte is 1 when it is held, 0 when it is queued (log 49). -/
def Enc.call (held : Bool) (c : Call) : List Byte :=
  byte c.number ++ byte c.cls.code ++ bellCode c.code ++ set16 c.lines ++ byte c.repeats ++ byte c.remaining ++
    flag c.wantAnswer ++ flag c.escalate ++ byte c.origin.code ++ flag held

/-- CALL-READ (R125); the levels of ANSWER0-9 are a set of bell lines (log 54). With 16 calls in being the answer
is longer than a frame holds (log 24). -/
def orderCallRead (o : RxOrder) (e : Ev) : OrderResult :=
  .after [formed o 0]
    (.report (Enc.bellSettings e.blx ++ Enc.byte e.blx.calls.length ++
      ((List.finRange 3).flatMap fun r => Enc.ringer e.now e.blx.ringers[r]) ++
      Enc.standingCall e.blx .evac ++ Enc.standingCall e.blx .alert ++
      e.blx.queue.flatMap (Enc.call false) ++ e.blx.heldCalls.flatMap (Enc.call true) ++ Enc.set16 e.lines.answer))

end Sys2Proof.Machine
end

