-- ==== Sys2Proof/Machine/PhraseOrders.lean ====
section
/-! DEFINITION. The orders of the Phrase Store (07): PHRASE-DECLARE, PHRASE-LOAD, PHRASE-READ. -/
namespace Sys2Proof.Machine

/-- PHRASE-DECLARE (R130, R131). -/
def orderPhraseDeclare (o : RxOrder) (e : Ev) : OrderResult :=
  let n := Body.word o.body 1
  .after [formed o 5]
    (match Body.fin 64 o.body 0 with
      | none => .refused .range []
      | some k =>
        .after
          [(decide (n ≤ 2048), .range), (decide (e.phs.totalWith k n ≤ Config.storageBlocks), .full),
           (e.anp.sounding.all fun j => decide (j.val < k.val), .busy)]
          (let p := e.phs.declare k n (BitVec.ofNat 16 (Body.word o.body 3))
           .keptEnv { e.toEnv with phs := p } e
            (Enc.byte p.slots[k].state.code ++ Enc.word (p.start k.val) ++ Enc.word p.free ++
              Enc.set64 (e.phs.invalidated k n))))

/-- PHRASE-LOAD (R132, R133). -/
def orderPhraseLoad (o : RxOrder) (e : Ev) : OrderResult :=
  let i := Body.word o.body 1
  .after [formed o 131]
    (match Body.fin 64 o.body 0 with
      | none => .refused .range []
      | some k =>
        .after
          [(e.phs.slots[k].state != .empty, .state), (decide (i < e.phs.slots[k].length), .range),
           (e.anp.sounding != some k, .busy)]
          (let r := e.phs.load k i (o.body.drop 3)
           .quiet { e.toEnv with phs := r.1 } e.toStore r.2
            (Enc.byte r.1.slots[k].state.code ++ Enc.word r.1.slots[k].loaded.length)))

/-- The directory summary (R137, log 3). -/
def Enc.directory (p : Phs) (sounding : Option (Fin 64)) : List Byte :=
  ((List.finRange 64).flatMap fun k => byte p.slots[k].state.code) ++ word p.total ++ word p.free ++
    optByte (sounding.map Fin.val)

/-- A slot's record (R137, log 3). The computed check and the lowest missing index are 0xFFFF where there is none
(log 47). -/
def Enc.slot (p : Phs) (sounding : Option (Fin 64)) (k : Fin 64) : List Byte :=
  let s := p.slots[k]
  byte k.val ++ byte s.state.code ++ word s.length ++ word (p.start k.val) ++ word s.check.toNat ++
    word ((s.computed.map BitVec.toNat).getD 0xFFFF) ++ word s.loaded.length ++
    word ((Phs.lowestMissing s).getD 0xFFFF) ++ flag (sounding == some k)

/-- PHRASE-READ (R137): with no body the directory, with one byte a slot's record. -/
def orderPhraseRead (o : RxOrder) (e : Ev) : OrderResult :=
  .after [(decide (o.body.length ≤ 1), .form)]
    (if o.body.isEmpty then .report (Enc.directory e.phs e.anp.sounding)
    else
      match Body.fin 64 o.body 0 with
      | none => .refused .range []
      | some k => .report (Enc.slot e.phs e.anp.sounding k))

end Sys2Proof.Machine
end

