-- ==== Sys2Proof/Machine/AnnounceOrders.lean ====
section
/-! DEFINITION. The orders of the Announcement Player (08): SCRIPT-SET, SCRIPT-READ, ANNOUNCE, ANNOUNCE-CANCEL,
ANNOUNCE-READ. -/
namespace Sys2Proof.Machine

/-- A script's record in the order SCRIPT-SET lists it (R139, log 3). -/
def Enc.script (s : Script) : List Byte :=
  flag s.chime ++ set8 s.speakers ++ byte s.items.length ++
    s.items.flatMap fun i => byte i.slot ++ byte i.repeats ++ byte i.gap

/-- The items of a SCRIPT-SET body, from its byte 4 (log 3). -/
def Body.items (b : Body) : List Item :=
  (List.range (byte b 3)).map fun k => ⟨byte b (4 + 3 * k), byte b (5 + 3 * k), byte b (6 + 3 * k)⟩

/-- The script of a SCRIPT-SET body (log 3). -/
def Body.script (b : Body) : Script := ⟨Body.items b, flag b 1, set8 b 2⟩

/-- A script within the ranges of R139. -/
def Script.valid (s : Script) : Bool :=
  decide (s.items.length ≤ 12) && (s.items.isEmpty || s.speakers != 0) &&
    s.items.all fun i => Body.within 1 63 i.slot && Body.within 1 4 i.repeats

/-- The slot is the script of the playing announcement, or the fire script while fire playback runs (R139). -/
def Ev.scriptBusy (e : Ev) (k : Fin 16) : Bool :=
  (e.anp.playing.any fun a => a.script == k) || (e.anp.fire && e.fzu.fireScript == some k)

/-- SCRIPT-SET (R139). -/
def orderScriptSet (o : RxOrder) (e : Ev) : OrderResult :=
  let s := Body.script o.body
  .after [(decide (4 ≤ o.body.length) && o.body.length == 4 + 3 * Body.byte o.body 3, .form)]
    (match Body.fin 16 o.body 0 with
      | none => .refused .range []
      | some k =>
        .after [(Body.isFlag o.body 1 && s.valid, .range), (!e.scriptBusy k, .busy)]
          (.kept e (e.setAnp fun a => { a with scripts := put a.scripts k s }) (Enc.script s)))

/-- SCRIPT-READ (R139). -/
def orderScriptRead (o : RxOrder) (e : Ev) : OrderResult :=
  .after [formed o 1]
    (match Body.fin 16 o.body 0 with
      | none => .refused .range []
      | some k => .report (Enc.script e.anp.scripts[k]))

/-- ANNOUNCE (R141): script, class, speaker set. -/
def orderAnnounce (o : RxOrder) (e : Ev) : OrderResult :=
  .after [formed o 3]
    (match Body.fin 16 o.body 0, Body.annClass o.body 1 with
      | some k, some cls =>
        match e.postAnnouncement k cls (Body.set8 o.body 2) .host o.held with
        | .refused r => .refused r []
        | .merged n e' => .acted .merged none (Enc.byte n) e.toEnv e'
        | .admitted n e' => .began e e' (.announcement n) (Enc.byte n)
      | _, _ => .refused .range [])

/-- ANNOUNCE-CANCEL (R145). -/
def orderAnnounceCancel (o : RxOrder) (e : Ev) : OrderResult :=
  .after [formed o 1]
    (match e.cancelAnnouncement (Body.byte o.body 0) with
      | some e' => .did e e' []
      | none => .refused .range [])

/-- An announcement: number, script, speaker set, class, origin (R150). -/
def Enc.announcement (a : Announcement) : List Byte :=
  byte a.number ++ byte a.script.val ++ set8 a.speakers ++ byte a.cls.code ++ byte a.origin.code

/-- The record of the playing announcement (R140, R150) with its mark before it; the held-answer reference is carried as
a flag (log 3). -/
def Enc.playing : Option Announcement → List Byte
  | none => flag false ++ List.replicate 6 0
  | some a => flag true ++ announcement a ++ flag a.heldRef

/-- The cursor: stage, item, repeat, block (R150). -/
def Enc.cursor (c : Cursor) : List Byte := flag c.onItem ++ byte c.item ++ byte c.rep ++ word c.block

/-- ANNOUNCE-READ (R150); the time left in PREPARING or GAP is in 10 ms units (log 46), and the levels of SPK0-7 are a set
of speaker zones (log 54). -/
def orderAnnounceRead (o : RxOrder) (e : Ev) : OrderResult :=
  let a := e.anp
  .after [formed o 0]
    (.report (Enc.byte a.state.code ++ Enc.flag a.fire ++ Enc.playing a.playing ++ Enc.cursor a.cursor ++
      Enc.flag a.pendingCut ++ Enc.skip a.skip ++ Enc.optByte (a.sounding.map Fin.val) ++ Enc.word (a.timer.left e.now) ++
      Enc.set8 e.out.spk ++ Enc.flag e.out.ampEn ++ Enc.byte a.queue.length ++ a.queue.flatMap Enc.announcement))

end Sys2Proof.Machine
end

