-- ==== Sys2Proof/Machine/TimeOrders.lean ====
section
/-! DEFINITION. The orders of the Time Base (09): TIME-SET, TIME-READ, TRIM-SET, TIMEBASE-CLEAR, WEEK-SET, EXCEPTION-SET,
EXCEPTION-REMOVE, HOURS-READ, STAMP-READ, STAMP-CLEAR, STAMP-MODE. -/
namespace Sys2Proof.Machine

/-- The instants a TIME-SET reaches: those it passes going forward within its date, unless the calendar was unset (R155). -/
def Ev.reachByOrder (old : Tmb) (c : CalTime) (e : Ev) : Ev :=
  e.when (c.date == old.cal.date && !old.timeUnset) (Ev.reachInstants old.cal.abs c.abs)

/-- What an accepted TIME-SET hands on: the start instant, the instants reached in the order of time, the steps due (R154,
R155, R165, R167). -/
def Ev.afterTimeSet (old : Tmb) (c : CalTime) (e : Ev) : Ev :=
  let e := e.renewStart.reachByOrder old c
  e.when e.cpu.run.isSome Ev.takeDueSteps

/-- TIME-SET (R154, R155). -/
def orderTimeSet (o : RxOrder) (e : Ev) : OrderResult :=
  .after [formed o 8]
    (match Body.calTime o.body 0 with
      | none => .refused .range []
      | some c =>
        let v := { e.toEnv with tmb := e.tmb.setTime c }
        .acted .done none (Enc.calTime c ++ Enc.byte c.date.weekday) v ((Ev.begin v e.toStore).afterTimeSet e.tmb c))

/-- TIME-READ (R154). -/
def orderTimeRead (o : RxOrder) (e : Ev) : OrderResult :=
  let t := e.tmb
  .after [formed o 0]
    (.report (Enc.calTime t.cal ++ Enc.byte t.cal.date.weekday ++ Enc.flag t.timeUnset ++ Enc.flag t.fault ++
      Enc.byte t.ref.code ++ Enc.trim t.trim))

/-- TRIM-SET (R156). -/
def orderTrimSet (o : RxOrder) (e : Ev) : OrderResult :=
  let x := Body.signed o.body 0
  .after [formed o 1, (decide (-63 ≤ x) && decide (x ≤ 63), .range)]
    (.keptEnv { e.toEnv with tmb := { e.tmb with trim := x } } e (Enc.trim x))

/-- TIMEBASE-CLEAR (R157). -/
def orderTimebaseClear (o : RxOrder) (e : Ev) : OrderResult :=
  .after [formed o 0, (e.tmb.ref == .crystal, .fault)]
    (if e.tmb.fault then
      .quiet { e.toEnv with tmb := { e.tmb with fault := false } } e.toStore [.timebase e.tmb.ref false] []
    else .report [])

/-- DONE after a change of the hours: today's hours are in `t`, and the start instant follows them (R160, R165). -/
def OrderResult.rescheduled (t : Tmb) (e : Ev) (data : List Byte) : OrderResult :=
  .quiet { e.toEnv with tmb := t } { e.toStore with cpu := { e.cpu with start := startInstant t e.cpu.programme } } [] data

/-- The weekday a WEEK-SET names, 1 for Monday (R158). -/
def Body.weekday (b : Body) : Option (Fin 7) := if h : byte b 0 - 1 < 7 ∧ 1 ≤ byte b 0 then some ⟨byte b 0 - 1, h.1⟩ else none

/-- WEEK-SET (R158, R160). -/
def orderWeekSet (o : RxOrder) (e : Ev) : OrderResult :=
  .after [formed o 5]
    (match Body.weekday o.body, Body.hours o.body 1 with
      | some i, some h => .rescheduled (e.tmb.withWeek i h) e (Enc.hours h)
      | _, _ => .refused .range [])

/-- EXCEPTION-SET (R159, R160). -/
def orderExceptionSet (o : RxOrder) (e : Ev) : OrderResult :=
  .after [formed o 8]
    (match Body.date o.body 0, Body.hours o.body 4 with
      | some d, some h =>
        .after
          [(e.tmb.timeUnset || !d.before e.tmb.cal.date, .range),
           ((e.tmb.exceptionOn d).isSome || decide (e.tmb.exceptions.length < 24), .full)]
          (let t := e.tmb.withException ⟨d, h⟩
           .rescheduled t e (Enc.byte t.exceptions.length))
      | _, _ => .refused .range [])

/-- EXCEPTION-REMOVE (R159, R160). -/
def orderExceptionRemove (o : RxOrder) (e : Ev) : OrderResult :=
  .after [formed o 4]
    (match Body.date o.body 0 with
      | none => .refused .range []
      | some d =>
        .after [((e.tmb.exceptionOn d).isSome, .range)]
          (let t := e.tmb.withoutException d
           .rescheduled t e (Enc.byte t.exceptions.length)))

/-- HOURS-READ (R160, log 3); its last byte is 1 for hours from an exception, 0 for those of the week (log 49). -/
def orderHoursRead (o : RxOrder) (e : Ev) : OrderResult :=
  let t := e.tmb
  .after [formed o 0]
    (.report (t.weekly.toList.flatMap Enc.hours ++ Enc.byte t.exceptions.length ++
      (t.exceptions.flatMap fun x => Enc.date x.date ++ Enc.hours x.hours) ++
      Enc.date t.cal.date ++ Enc.byte t.cal.date.weekday ++ Enc.hours t.today ++
      Enc.flag (t.exceptionOn t.cal.date).isSome))

/-- STAMP-READ (R162). -/
def orderStampRead (o : RxOrder) (e : Ev) : OrderResult :=
  .after [formed o 0] (.report (e.stamps.toList.flatMap Enc.stamp))

/-- An emptied stamp slot keeps its mode (R162). -/
def Stamp.emptied (s : Stamp) : Stamp := ⟨s.mode, 0, none, 0⟩

/-- STAMP-CLEAR (R162). -/
def orderStampClear (o : RxOrder) (e : Ev) : OrderResult :=
  .after [formed o 1]
    (match Body.fin 5 o.body 0 with
      | none => .refused .range []
      | some k => .kept e (e.setStamps fun t => put t k t[k].emptied) (Enc.stamp e.stamps[k]))

/-- STAMP-MODE (R162). -/
def orderStampMode (o : RxOrder) (e : Ev) : OrderResult :=
  .after [formed o 2]
    (match Body.fin 5 o.body 0, Body.stampMode o.body 1 with
      | some k, some m =>
        let s := { e.stamps[k] with mode := m }
        .kept e (e.setStamps fun t => put t k s) (Enc.stamp s)
      | _, _ => .refused .range [])

end Sys2Proof.Machine
end

