-- ==== Sys2Proof/Machine/ClosingOrders.lean ====
section
/-! DEFINITION. The orders of the Closing Programme Unit (10): PROGRAMME-SET, PROGRAMME-READ, CLOSING-BEGIN,
CLOSING-CANCEL, RUN-READ. -/
namespace Sys2Proof.Machine

/-- The steps of a PROGRAMME-SET body, after the byte that counts them (log 3). -/
def Body.programme (b : Body) : Option (List (Option Step)) :=
  if b.isEmpty then none else steps (byte b 0) (b.drop 1)

def Action.isNight : Action → Bool
  | .night => true
  | _ => false

/-- A programme is empty, or holds exactly one NIGHT step, at its end (R164). -/
def nightRule (p : List Step) : Bool :=
  p.isEmpty || ((p.filter fun s => s.action.isNight).length == 1 && p.getLast?.any fun s => s.action.isNight)

/-- PROGRAMME-SET (R164, R165). -/
def orderProgrammeSet (o : RxOrder) (e : Ev) : OrderResult :=
  match Body.programme o.body with
  | none => .refused .form []
  | some xs =>
    let p := sortBy Step.offset (xs.filterMap id)
    .after
      [(decide (xs.length ≤ 16) && xs.all Option.isSome, .range), (nightRule p, .range), (e.cpu.run.isNone, .busy)]
      (.kept e (e.setCpu fun c => { c with programme := p }).renewStart (Enc.byte p.length))

/-- The parameters of a step's action (R164, log 3). -/
def Enc.parameters : Action → List Byte
  | .announce k sp => byte k.val ++ set8 sp
  | .bell code l n => bellCode code ++ set16 l ++ byte n
  | .grilles s => set16 s
  | .sweep | .night => []

/-- A step: the offset as one byte in two's complement (log 48), the action, its parameters (R164, log 3). -/
def Enc.step (s : Step) : List Byte := [BitVec.ofInt 8 s.offset] ++ byte s.action.code ++ parameters s.action

/-- The start instant with its mark before it (R164, log 3). -/
def Enc.start : Option Int → List Byte
  | none => flag false ++ List.replicate 8 0
  | some x => flag true ++ instant x

/-- PROGRAMME-READ (R164). -/
def orderProgrammeRead (o : RxOrder) (e : Ev) : OrderResult :=
  .after [formed o 0]
    (.report (Enc.byte e.cpu.programme.length ++ e.cpu.programme.flatMap Enc.step ++ Enc.start e.cpu.start))

/-- The closing time a CLOSING-BEGIN uses: today at the minutes given, or, without one, the one that makes the first step
due at once (R166). -/
def Ev.closingFor (minutes : Nat) (first : Step) (e : Ev) : Int :=
  if minutes = 0xFFFF then e.tmb.cal.abs - first.offset * 6000 else instantOf e.tmb.cal.date minutes

/-- CLOSING-BEGIN (R166). -/
def orderClosingBegin (o : RxOrder) (e : Ev) : OrderResult :=
  let m := Body.word o.body 0
  .after
    [formed o 2, (decide (m ≤ 1439) || m == 0xFFFF, .range), (e.msu.mode == .trading, .mode),
      (!e.tmb.timeUnset, .timeUnset)]
    (match e.cpu.programme with
      | [] => .refused .state []
      | first :: _ => .did e (e.startRun .order (e.closingFor m first) e.tmb.cal.abs) (Enc.instant (e.closingFor m first)))

/-- CLOSING-CANCEL (R5, R173). -/
def orderClosingCancel (o : RxOrder) (e : Ev) : OrderResult :=
  .after [formed o 0, (e.cpu.run.isSome, .state)] (.did e ((e.cutRun .cancel).setMode .trading .cancel) [])

/-- A run record (R163): after the cursor the step outcomes, then the step reasons, then the grille results, each list
with one entry for each step (log 3), an empty one for a GRILLES step whose claims are not made (log 60). -/
def Enc.run (r : Run) : List Byte :=
  byte r.startCause.code ++ instant r.closing ++ byte r.cursor ++ byte r.steps.length ++
    (r.steps.flatMap fun x => byte x.outcome.code) ++ (r.steps.flatMap fun x => byte x.reason.code) ++
    r.steps.flatMap fun x => grilles x.grilles

/-- The previous run with its end cause (R173). -/
def Enc.ended (p : Run × EndCause) : List Byte := run p.1 ++ byte p.2.code

/-- RUN-READ (R173, log 3, log 24). -/
def orderRunRead (o : RxOrder) (e : Ev) : OrderResult :=
  .after [formed o 0]
    (.report (Enc.flag e.cpu.run.isSome ++ ((e.cpu.run.map Enc.run).getD []) ++ Enc.flag e.cpu.prev.isSome ++
      ((e.cpu.prev.map Enc.ended).getD []) ++ Enc.start e.cpu.start))

end Sys2Proof.Machine
end

