-- ==== Sys2Proof/Machine/Link.lean ====
section
/-! DEFINITION. The Link Unit (11): which block an order goes to (R177), the taking of orders with their answers and held
answers (R177, R178), STATUS (R180), the intake (R177), the receive buffer (R176) and the receiver (R175). -/
namespace Sys2Proof.Machine

/-- An order passed to its owning block by its code (R177); STATUS is the Link Unit's own. -/
def handle (code : Nat) (o : RxOrder) (e : Ev) : OrderResult :=
  match code with
  | 0x02 => orderCommence o e
  | 0x03 => orderRestart o e
  | 0x04 => orderWake o e
  | 0x05 => orderClearWake o e
  | 0x06 => orderForceNight o e
  | 0x07 => orderPermitsSet o e
  | 0x10 => orderChainSet o e
  | 0x11 => orderLandingSet o e
  | 0x12 => orderLandingRead o e
  | 0x13 => orderClearDerive o e
  | 0x14 => orderClearRead o e
  | 0x15 => orderSurvey o e
  | 0x16 => orderPnStart o e
  | 0x17 => orderPnStop o e
  | 0x18 => orderPnSweep o e
  | 0x19 => orderPnNightLock o e
  | 0x1A => orderPnHalt o e
  | 0x1B => orderPnReset o e
  | 0x1C => orderPnUnlock o e
  | 0x1D => orderPnRead o e
  | 0x20 => orderShutterSet o e
  | 0x21 => orderShutterRead o e
  | 0x22 => orderShutterClose o e
  | 0x23 => orderShutterRaise o e
  | 0x24 => orderShutterStop o e
  | 0x25 => orderShutterClear o e
  | 0x30 => orderZoneSet o e
  | 0x31 => orderZoneRead o e
  | 0x32 => orderZoneDeclare o e
  | 0x33 => orderZoneReset o e
  | 0x34 => orderZoneDisable o e
  | 0x35 => orderZoneEnable o e
  | 0x36 => orderFireSet o e
  | 0x40 => orderBellSet o e
  | 0x41 => orderCallPost o e
  | 0x42 => orderCallCancel o e
  | 0x43 => orderCallRead o e
  | 0x50 => orderPhraseDeclare o e
  | 0x51 => orderPhraseLoad o e
  | 0x52 => orderPhraseRead o e
  | 0x60 => orderScriptSet o e
  | 0x61 => orderScriptRead o e
  | 0x62 => orderAnnounce o e
  | 0x63 => orderAnnounceCancel o e
  | 0x64 => orderAnnounceRead o e
  | 0x70 => orderTimeSet o e
  | 0x71 => orderTimeRead o e
  | 0x72 => orderTrimSet o e
  | 0x73 => orderTimebaseClear o e
  | 0x74 => orderWeekSet o e
  | 0x75 => orderExceptionSet o e
  | 0x76 => orderExceptionRemove o e
  | 0x77 => orderHoursRead o e
  | 0x78 => orderStampRead o e
  | 0x79 => orderStampClear o e
  | 0x7A => orderStampMode o e
  | 0x80 => orderProgrammeSet o e
  | 0x81 => orderProgrammeRead o e
  | 0x82 => orderClosingBegin o e
  | 0x83 => orderClosingCancel o e
  | 0x84 => orderRunRead o e
  | _ => .refused .unknown []

/-! ## STATUS (R180) -/

/-- The data of a STATUS answer: bytes 2 to 13 of its table (R184). -/
def Enc.status (s : State) : List Byte :=
  byte s.msu.mode.code ++ power s.msu.source s.msu.batteryLow ++ flag s.fzu.fire ++ set8 s.alarmed ++ set8 s.standing ++
    byte s.pnc.state.code ++ byte ((if s.tmb.timeUnset then 1 else 0) + (if s.tmb.fault then 2 else 0)) ++
    set8 s.msu.wake ++ flag s.cpu.run.isSome ++ flag s.lnk.lost ++ byte s.lnk.held.length ++ byte s.lnk.outbox.length

/-! ## Taking an order (R177, R178) -/

/-- The Link Unit answers an order (R177, R182). -/
def Lnk.reply (l : Lnk) (o : RxOrder) (out : Outcome) (r : Reason) (data : List Byte) : Lnk :=
  l.push (.answer o.tag o.code out r data)

/-- The order asks for a held answer: its kind is that and its code a long operation (R178). -/
def RxOrder.wantsHeld (o : RxOrder) : Bool := o.held && isLongOperation o.code

/-- The Link Unit's side of an event of the blocks: the answer, or the held answer that takes its place (R178). -/
def Lnk.respond (l : Lnk) (o : RxOrder) (out : Outcome) (op : Option HeldOp) (data : List Byte) : Lnk :=
  match op with
  | some x => if o.wantsHeld && out == .started then { l with held := l.held ++ [⟨o.tag, o.code, x⟩] } else l.reply o out .none data
  | none => l.reply o out .none data

/-- What a block's answer to an order comes to (R177, R178): the answer enters the outbox ahead of the event's notices. -/
def settleOrder (o : RxOrder) (r : OrderResult) (s : State) : State :=
  match r with
  | .refused x data => { s with lnk := s.lnk.reply o .refused x data }
  | .report data => { s with lnk := s.lnk.reply o .done .none data }
  | .quiet v st notices data =>
    { toStore := st.driven v.phs, toEnv := v, lnk := (s.lnk.reply o .done .none data).takeAll (notices.map .notice), pending := s.pending }
  | .acted out op data v e => finish s (s.lnk.respond o out op data) v e.conclude
  | .restart k => Sys2Proof.Machine.restart k s

/-- STATUS: answered with the flag as it stands, and the flag cleared (R180). -/
def takeStatus (o : RxOrder) (s : State) : State :=
  if o.body.isEmpty then { s with lnk := { s.lnk.reply o .done .none (Enc.status s) with lost := false } }
  else { s with lnk := s.lnk.reply o .refused .form [] }

/-- An order taken out of the receive buffer is checked and passed on (R177). -/
def takeOrder (o : RxOrder) (s : State) : State :=
  if !isOrderCode o.code then { s with lnk := s.lnk.reply o .refused .unknown [] }
  else if o.wantsHeld && decide (Config.heldCapacity ≤ s.lnk.held.length) then
    { s with lnk := s.lnk.reply o .refused .heldFull [] }
  else if o.code = 0x01 then takeStatus o s
  else settleOrder o (handle o.code.toNat o (Ev.begin s.toEnv s.toStore)) s

/-- The intake condition (R177). -/
def Lnk.admits (l : Lnk) : Bool := decide (l.outbox.length + l.held.length ≤ 27)

/-- Orders are taken one after another while the buffer holds some and the intake condition holds (R177, log 2). -/
def intake : Nat → State → State
  | 0, s => s
  | fuel + 1, s =>
    match s.lnk.rxBuf with
    | [] => s
    | o :: rest => if s.lnk.admits then intake fuel (takeOrder o { s with lnk := { s.lnk with rxBuf := rest } }) else s

/-- The intake over all the receive buffer holds. -/
def takeOrders (s : State) : State := intake s.lnk.rxBuf.length s

/-! ## The receive buffer (R176) and the receiver (R175) -/

/-- A complete order frame: it enters the receive buffer unless four frames are there, and orders are taken (R176, R177). -/
def arrive (o : RxOrder) (s : State) : State :=
  let l := { s.lnk with reception := none }
  if l.rxBuf.length < Config.rxCapacity then takeOrders { s with lnk := { l with rxBuf := l.rxBuf ++ [o] } }
  else { s with lnk := l }

/-- The order in a whole frame of good check, when its kind is an order's (R175, R182). -/
def orderIn (frame : List Byte) : Option RxOrder :=
  let n := (frame.getD 1 0).toNat
  let inner := (frame.drop 1).take (n + 1)
  let kind := frame.getD 2 0
  if Enc.word (crc16 inner).toNat = frame.drop (n + 2) ∧ (kind = 0x10 ∨ kind = 0x11) then
    some ⟨kind == 0x11, frame.getD 3 0, frame.getD 4 0, (frame.drop 5).take (n - 3)⟩
  else none

/-- A length byte the receiver accepts (R175). -/
def lengthInRange (b : Byte) : Bool := Body.within 3 250 b.toNat

/-- What a frame in reception comes to with one more byte: still in reception, discarded or complete (R175). -/
inductive Reception where
  | going (bytes : List Byte)
  | dropped
  | complete (frame : List Byte)
deriving DecidableEq, Repr

/-- One byte of RXD (R175). -/
def receive (r : Option (List Byte)) (b : Byte) : Reception :=
  match r with
  | none => if b = 0xA5 then .going [b] else .dropped
  | some [] => .dropped
  | some [x] => if lengthInRange b then .going [x, b] else .dropped
  | some (x :: n :: rest) =>
    let frame := x :: n :: rest ++ [b]
    if frame.length = n.toNat + 4 then .complete frame else .going frame

/-- A byte received, and what follows when it completes a frame (R175, R176). -/
def receiveByte (b : Byte) (s : State) : State :=
  match receive s.lnk.reception b with
  | .going bytes => { s with lnk := { s.lnk with reception := some bytes } }
  | .dropped => { s with lnk := { s.lnk with reception := none } }
  | .complete frame =>
    match orderIn frame with
    | some o => arrive o s
    | none => { s with lnk := { s.lnk with reception := none } }

/-- Bytes received one after another (R175). -/
def receiveAll (bytes : List Byte) (s : State) : State := bytes.foldl (fun s b => receiveByte b s) s

/-- The frame in reception is discarded (R175). -/
def dropReception (s : State) : State := { s with lnk := { s.lnk with reception := none } }

/-- The oldest outbox frame has been sent whole: it leaves the outbox, and orders are taken (R177, R179). -/
def frameSent (s : State) : State :=
  match s.lnk.outbox with
  | [] => s
  | _ :: rest => takeOrders { s with lnk := { s.lnk with outbox := rest } }

end Sys2Proof.Machine
end

