-- ==== Sys2Proof/Machine/Ticks.lean ====
section
/-! DEFINITION. The running of the calendar (R153, R155, R167), the trim period (R156) and the crystal (R157) as events of
the whole part. -/
namespace Sys2Proof.Machine

/-- The start instant renewed at a change of date (R165). -/
def Store.atDate (s : Store) (t : Tmb) (changed : Bool) : Store :=
  if changed then { s with cpu := { s.cpu with start := startInstant t s.cpu.programme } } else s

/-- One hundredth of the calendar: the midnight rollover where it falls (R153), then the instants and due steps it
reaches, all in the one event (R155, R167). -/
def tick (s : State) : State :=
  let t := s.tmb.tick
  let v := { s.toEnv with tmb := t }
  let st := s.toStore.atDate t s.tmb.cal.lastOfDay
  let e := Ev.begin v st
  let lo := s.tmb.cal.abs
  let hi := t.cal.abs
  if !t.timeUnset && e.someInstant lo hi then finish s s.lnk v (e.runInstants lo hi).conclude
  else { toStore := st, toEnv := v, lnk := s.lnk, pending := s.pending }

/-- The tick, when what the next hundredth brings is what the row names; otherwise that event is not at hand (log 10). -/
def tickWhen (named : Bool) (s : State) : State := if named then tick s else s

/-- The next hundredth is the midnight rollover (R153). -/
def rolloverNext (s : State) : Bool := s.tmb.cal.lastOfDay

/-- The Time Base and the blocks as the next hundredth finds them, and whether an instant counts (R155). -/
def nextEv (s : State) : Ev :=
  let t := s.tmb.tick
  Ev.begin { s.toEnv with tmb := t } (s.toStore.atDate t s.tmb.cal.lastOfDay)

/-- The next hundredth reaches today's opening time (R155). -/
def openingNext (s : State) : Bool :=
  let e := nextEv s
  !e.tmb.timeUnset && Ev.passes s.tmb.cal.abs e.tmb.cal.abs e.tmb.opening

/-- The next hundredth reaches the start instant (R155, R165). -/
def startNext (s : State) : Bool :=
  let e := nextEv s
  !e.tmb.timeUnset && Ev.passes s.tmb.cal.abs e.tmb.cal.abs e.cpu.start

/-- The next hundredth reaches the due instant of a PENDING step (R155, R167). -/
def stepNext (s : State) : Bool :=
  let e := nextEv s
  !e.tmb.timeUnset && e.stepReached s.tmb.cal.abs e.tmb.cal.abs

/-- The end of a 64-second period (R156). -/
def trimPeriodEnds (s : State) : State := { s with tmb := s.tmb.trimPeriod }

/-- N-TIMEBASE of a change of the reference or the flag (R157). -/
def timebaseChange (crystal : Bool) (t : Tmb) (s : State) : State :=
  let changed := t.ref != s.tmb.ref || t.fault != s.tmb.fault
  { s with lines := { s.lines with crystal := crystal }, tmb := t, lnk := if changed then s.lnk.offer (.timebase t.ref t.fault) else s.lnk }

/-- The crystal stops (R157). -/
def crystalStops (s : State) : State := timebaseChange false { s.tmb with ref := .internal, fault := true } s

/-- The crystal runs again (R157). -/
def crystalResumes (s : State) : State := timebaseChange true { s.tmb with ref := .crystal } s

end Sys2Proof.Machine
end

