-- ==== Sys2Proof/Machine/OrderRows.lean ====
section
/-! DEFINITION. The meanings of the order rows: each is the arrival of that order's complete frame (R175, R176), and the
order-takings that follow at once (R177, log 2). What each order does stands in its block's orders file. -/
namespace Sys2Proof.Machine

/-- The complete frame of an order row. -/
def frameOf (h : OrderHead) (code : Byte) (body : List Byte) : RxOrder := ⟨h.held, h.tag, code, body⟩

/-- STATUS (R180). -/
def execStatus (h : OrderHead) (body : List Byte) (s : State) : Host.Outcome State Fault Refusal :=
  .next (arrive (frameOf h 0x01 body) s)

/-- COMMENCE (R2). -/
def execCommence (h : OrderHead) (body : List Byte) (s : State) : Host.Outcome State Fault Refusal :=
  .next (arrive (frameOf h 0x02 body) s)

/-- RESTART (R22). -/
def execRestart (h : OrderHead) (body : List Byte) (s : State) : Host.Outcome State Fault Refusal :=
  .next (arrive (frameOf h 0x03 body) s)

/-- WAKE (R10). -/
def execWake (h : OrderHead) (body : List Byte) (s : State) : Host.Outcome State Fault Refusal :=
  .next (arrive (frameOf h 0x04 body) s)

/-- CLEAR-WAKE (R14). -/
def execClearWake (h : OrderHead) (body : List Byte) (s : State) : Host.Outcome State Fault Refusal :=
  .next (arrive (frameOf h 0x05 body) s)

/-- FORCE-NIGHT (R6). -/
def execForceNight (h : OrderHead) (body : List Byte) (s : State) : Host.Outcome State Fault Refusal :=
  .next (arrive (frameOf h 0x06 body) s)

/-- PERMITS-SET (R17). -/
def execPermitsSet (h : OrderHead) (body : List Byte) (s : State) : Host.Outcome State Fault Refusal :=
  .next (arrive (frameOf h 0x07 body) s)

/-- CHAIN-SET (R25). -/
def execChainSet (h : OrderHead) (body : List Byte) (s : State) : Host.Outcome State Fault Refusal :=
  .next (arrive (frameOf h 0x10 body) s)

/-- LANDING-SET (R26). -/
def execLandingSet (h : OrderHead) (body : List Byte) (s : State) : Host.Outcome State Fault Refusal :=
  .next (arrive (frameOf h 0x11 body) s)

/-- LANDING-READ (R27). -/
def execLandingRead (h : OrderHead) (body : List Byte) (s : State) : Host.Outcome State Fault Refusal :=
  .next (arrive (frameOf h 0x12 body) s)

/-- CLEAR-DERIVE (R30). -/
def execClearDerive (h : OrderHead) (body : List Byte) (s : State) : Host.Outcome State Fault Refusal :=
  .next (arrive (frameOf h 0x13 body) s)

/-- CLEAR-READ (R27). -/
def execClearRead (h : OrderHead) (body : List Byte) (s : State) : Host.Outcome State Fault Refusal :=
  .next (arrive (frameOf h 0x14 body) s)

/-- SURVEY (R34). -/
def execSurvey (h : OrderHead) (body : List Byte) (s : State) : Host.Outcome State Fault Refusal :=
  .next (arrive (frameOf h 0x15 body) s)

/-- PN-START (R43). -/
def execPnStart (h : OrderHead) (body : List Byte) (s : State) : Host.Outcome State Fault Refusal :=
  .next (arrive (frameOf h 0x16 body) s)

/-- PN-STOP (R46). -/
def execPnStop (h : OrderHead) (body : List Byte) (s : State) : Host.Outcome State Fault Refusal :=
  .next (arrive (frameOf h 0x17 body) s)

/-- PN-SWEEP (R50). -/
def execPnSweep (h : OrderHead) (body : List Byte) (s : State) : Host.Outcome State Fault Refusal :=
  .next (arrive (frameOf h 0x18 body) s)

/-- PN-NIGHT-LOCK (R52). -/
def execPnNightLock (h : OrderHead) (body : List Byte) (s : State) : Host.Outcome State Fault Refusal :=
  .next (arrive (frameOf h 0x19 body) s)

/-- PN-HALT (R54). -/
def execPnHalt (h : OrderHead) (body : List Byte) (s : State) : Host.Outcome State Fault Refusal :=
  .next (arrive (frameOf h 0x1A body) s)

/-- PN-RESET (R55). -/
def execPnReset (h : OrderHead) (body : List Byte) (s : State) : Host.Outcome State Fault Refusal :=
  .next (arrive (frameOf h 0x1B body) s)

/-- PN-UNLOCK (R56). -/
def execPnUnlock (h : OrderHead) (body : List Byte) (s : State) : Host.Outcome State Fault Refusal :=
  .next (arrive (frameOf h 0x1C body) s)

/-- PN-READ (R64). -/
def execPnRead (h : OrderHead) (body : List Byte) (s : State) : Host.Outcome State Fault Refusal :=
  .next (arrive (frameOf h 0x1D body) s)

/-- SHUTTER-SET (R67). -/
def execShutterSet (h : OrderHead) (body : List Byte) (s : State) : Host.Outcome State Fault Refusal :=
  .next (arrive (frameOf h 0x20 body) s)

/-- SHUTTER-READ (R68). -/
def execShutterRead (h : OrderHead) (body : List Byte) (s : State) : Host.Outcome State Fault Refusal :=
  .next (arrive (frameOf h 0x21 body) s)

/-- SHUTTER-CLOSE (R81). -/
def execShutterClose (h : OrderHead) (body : List Byte) (s : State) : Host.Outcome State Fault Refusal :=
  .next (arrive (frameOf h 0x22 body) s)

/-- SHUTTER-RAISE (R82). -/
def execShutterRaise (h : OrderHead) (body : List Byte) (s : State) : Host.Outcome State Fault Refusal :=
  .next (arrive (frameOf h 0x23 body) s)

/-- SHUTTER-STOP (R76). -/
def execShutterStop (h : OrderHead) (body : List Byte) (s : State) : Host.Outcome State Fault Refusal :=
  .next (arrive (frameOf h 0x24 body) s)

/-- SHUTTER-CLEAR (R80). -/
def execShutterClear (h : OrderHead) (body : List Byte) (s : State) : Host.Outcome State Fault Refusal :=
  .next (arrive (frameOf h 0x25 body) s)

/-- ZONE-SET (R95). -/
def execZoneSet (h : OrderHead) (body : List Byte) (s : State) : Host.Outcome State Fault Refusal :=
  .next (arrive (frameOf h 0x30 body) s)

/-- ZONE-READ (R99). -/
def execZoneRead (h : OrderHead) (body : List Byte) (s : State) : Host.Outcome State Fault Refusal :=
  .next (arrive (frameOf h 0x31 body) s)

/-- ZONE-DECLARE (R92). -/
def execZoneDeclare (h : OrderHead) (body : List Byte) (s : State) : Host.Outcome State Fault Refusal :=
  .next (arrive (frameOf h 0x32 body) s)

/-- ZONE-RESET (R93). -/
def execZoneReset (h : OrderHead) (body : List Byte) (s : State) : Host.Outcome State Fault Refusal :=
  .next (arrive (frameOf h 0x33 body) s)

/-- ZONE-DISABLE (R94). -/
def execZoneDisable (h : OrderHead) (body : List Byte) (s : State) : Host.Outcome State Fault Refusal :=
  .next (arrive (frameOf h 0x34 body) s)

/-- ZONE-ENABLE (R94). -/
def execZoneEnable (h : OrderHead) (body : List Byte) (s : State) : Host.Outcome State Fault Refusal :=
  .next (arrive (frameOf h 0x35 body) s)

/-- FIRE-SET (R97). -/
def execFireSet (h : OrderHead) (body : List Byte) (s : State) : Host.Outcome State Fault Refusal :=
  .next (arrive (frameOf h 0x36 body) s)

/-- BELL-SET (R108). -/
def execBellSet (h : OrderHead) (body : List Byte) (s : State) : Host.Outcome State Fault Refusal :=
  .next (arrive (frameOf h 0x40 body) s)

/-- CALL-POST (R111). -/
def execCallPost (h : OrderHead) (body : List Byte) (s : State) : Host.Outcome State Fault Refusal :=
  .next (arrive (frameOf h 0x41 body) s)

/-- CALL-CANCEL (R119). -/
def execCallCancel (h : OrderHead) (body : List Byte) (s : State) : Host.Outcome State Fault Refusal :=
  .next (arrive (frameOf h 0x42 body) s)

/-- CALL-READ (R125). -/
def execCallRead (h : OrderHead) (body : List Byte) (s : State) : Host.Outcome State Fault Refusal :=
  .next (arrive (frameOf h 0x43 body) s)

/-- PHRASE-DECLARE (R131). -/
def execPhraseDeclare (h : OrderHead) (body : List Byte) (s : State) : Host.Outcome State Fault Refusal :=
  .next (arrive (frameOf h 0x50 body) s)

/-- PHRASE-LOAD (R132). -/
def execPhraseLoad (h : OrderHead) (body : List Byte) (s : State) : Host.Outcome State Fault Refusal :=
  .next (arrive (frameOf h 0x51 body) s)

/-- PHRASE-READ (R137). -/
def execPhraseRead (h : OrderHead) (body : List Byte) (s : State) : Host.Outcome State Fault Refusal :=
  .next (arrive (frameOf h 0x52 body) s)

/-- SCRIPT-SET (R139). -/
def execScriptSet (h : OrderHead) (body : List Byte) (s : State) : Host.Outcome State Fault Refusal :=
  .next (arrive (frameOf h 0x60 body) s)

/-- SCRIPT-READ (R139). -/
def execScriptRead (h : OrderHead) (body : List Byte) (s : State) : Host.Outcome State Fault Refusal :=
  .next (arrive (frameOf h 0x61 body) s)

/-- ANNOUNCE (R141). -/
def execAnnounce (h : OrderHead) (body : List Byte) (s : State) : Host.Outcome State Fault Refusal :=
  .next (arrive (frameOf h 0x62 body) s)

/-- ANNOUNCE-CANCEL (R145). -/
def execAnnounceCancel (h : OrderHead) (body : List Byte) (s : State) : Host.Outcome State Fault Refusal :=
  .next (arrive (frameOf h 0x63 body) s)

/-- ANNOUNCE-READ (R150). -/
def execAnnounceRead (h : OrderHead) (body : List Byte) (s : State) : Host.Outcome State Fault Refusal :=
  .next (arrive (frameOf h 0x64 body) s)

/-- TIME-SET (R154). -/
def execTimeSet (h : OrderHead) (body : List Byte) (s : State) : Host.Outcome State Fault Refusal :=
  .next (arrive (frameOf h 0x70 body) s)

/-- TIME-READ (R154). -/
def execTimeRead (h : OrderHead) (body : List Byte) (s : State) : Host.Outcome State Fault Refusal :=
  .next (arrive (frameOf h 0x71 body) s)

/-- TRIM-SET (R156). -/
def execTrimSet (h : OrderHead) (body : List Byte) (s : State) : Host.Outcome State Fault Refusal :=
  .next (arrive (frameOf h 0x72 body) s)

/-- TIMEBASE-CLEAR (R157). -/
def execTimebaseClear (h : OrderHead) (body : List Byte) (s : State) : Host.Outcome State Fault Refusal :=
  .next (arrive (frameOf h 0x73 body) s)

/-- WEEK-SET (R158). -/
def execWeekSet (h : OrderHead) (body : List Byte) (s : State) : Host.Outcome State Fault Refusal :=
  .next (arrive (frameOf h 0x74 body) s)

/-- EXCEPTION-SET (R159). -/
def execExceptionSet (h : OrderHead) (body : List Byte) (s : State) : Host.Outcome State Fault Refusal :=
  .next (arrive (frameOf h 0x75 body) s)

/-- EXCEPTION-REMOVE (R159). -/
def execExceptionRemove (h : OrderHead) (body : List Byte) (s : State) : Host.Outcome State Fault Refusal :=
  .next (arrive (frameOf h 0x76 body) s)

/-- HOURS-READ (R160). -/
def execHoursRead (h : OrderHead) (body : List Byte) (s : State) : Host.Outcome State Fault Refusal :=
  .next (arrive (frameOf h 0x77 body) s)

/-- STAMP-READ (R162). -/
def execStampRead (h : OrderHead) (body : List Byte) (s : State) : Host.Outcome State Fault Refusal :=
  .next (arrive (frameOf h 0x78 body) s)

/-- STAMP-CLEAR (R162). -/
def execStampClear (h : OrderHead) (body : List Byte) (s : State) : Host.Outcome State Fault Refusal :=
  .next (arrive (frameOf h 0x79 body) s)

/-- STAMP-MODE (R162). -/
def execStampMode (h : OrderHead) (body : List Byte) (s : State) : Host.Outcome State Fault Refusal :=
  .next (arrive (frameOf h 0x7A body) s)

/-- PROGRAMME-SET (R164). -/
def execProgrammeSet (h : OrderHead) (body : List Byte) (s : State) : Host.Outcome State Fault Refusal :=
  .next (arrive (frameOf h 0x80 body) s)

/-- PROGRAMME-READ (R164). -/
def execProgrammeRead (h : OrderHead) (body : List Byte) (s : State) : Host.Outcome State Fault Refusal :=
  .next (arrive (frameOf h 0x81 body) s)

/-- CLOSING-BEGIN (R166). -/
def execClosingBegin (h : OrderHead) (body : List Byte) (s : State) : Host.Outcome State Fault Refusal :=
  .next (arrive (frameOf h 0x82 body) s)

/-- CLOSING-CANCEL (R173). -/
def execClosingCancel (h : OrderHead) (body : List Byte) (s : State) : Host.Outcome State Fault Refusal :=
  .next (arrive (frameOf h 0x83 body) s)

/-- RUN-READ (R173). -/
def execRunRead (h : OrderHead) (body : List Byte) (s : State) : Host.Outcome State Fault Refusal :=
  .next (arrive (frameOf h 0x84 body) s)

/-- An order with a code that names none (R177). -/
def execUnknownOrder (h : OrderHead) (code : Byte) (body : List Byte) (s : State) : Host.Outcome State Fault Refusal :=
  .next (arrive (frameOf h code body) s)

end Sys2Proof.Machine
end

