-- ==== Sys2Proof/Machine/EventRows.lean ====
section
/-! DEFINITION. The meanings of the event rows: bytes and frames on the link, supplies and keys, the chain, the
paternoster's inputs and timers, the shutters, the fire zones and their timers, the ringers, the player, and the Time
Base. A line row acts when the line really changes (5.6); an expiry row acts while its timer runs (log 9). -/
namespace Sys2Proof.Machine

/-- The input lines at new levels, and nothing else. -/
def State.atLines (s : State) (l : Lines) : State := { s with lines := l }

/-- A change of the input lines, with what it does. -/
def lineEvent (l : Lines) (f : Ev → Ev) (s : State) : State := event { s.toEnv with lines := l } f s

/-- STAFF_KEY turned: the stamp claim, and the wake latch in CLOSING or NIGHT (R12). -/
def Ev.staffKeyTurned (e : Ev) : Ev := (e.stamp stampStaffKey 0).latch staffKeyWake

/-- A cord or guard of a landing; that of an absent landing counts for nothing (R41). -/
def Ev.landingCause (l : Fin 8) (c : Cause) (e : Ev) : Ev := e.when e.cht.landings[l].present (Ev.estop c)

/-- DRV_READY has become active: HELD evaluates again at the end of the event (R60). -/
def Ev.driveReady (e : Ev) : Ev := { e with drvRose := true }

/-- A zone's input becomes active (R90). -/
def Ev.zoneSounds (z : Fin 6) (e : Ev) : Ev := e.changeZone z (Ev.zoneOn e.fzu.zones[z]) .input

/-- A zone's input goes inactive (R90). -/
def Ev.zoneSilent (z : Fin 6) (e : Ev) : Ev := e.changeZone z (Ev.zoneOff e.fzu.zones[z]) .input

/-- A cause input at rest (R55). -/
def Lines.quieted (l : Lines) (i : CauseInput) : Lines :=
  match i with
  | .cord k => { l with cords := strike l.cords k.val }
  | .guard k => { l with guards := strike l.guards k.val }
  | .driveFault => { l with drvFault := false }

/-- A length byte out of range discards the frame that waits for it (R175). -/
def badLength (len : Byte) (s : State) : State :=
  match s.lnk.reception with
  | some (_ :: _ :: _) => s
  | _ => if lengthInRange len then s else dropReception s

/-- FRAME_RECEIVED (R175). -/
def execFrameReceived (bytes : List Byte) (s : State) : Host.Outcome State Fault Refusal :=
  .next (receiveAll bytes s)

/-- RECEIVE_GAP_TIMEOUT (R175). -/
def execReceiveGapTimeout (s : State) : Host.Outcome State Fault Refusal :=
  .next (dropReception s)

/-- OUTBOX_FRAME_SENT (R179). -/
def execOutboxFrameSent (s : State) : Host.Outcome State Fault Refusal :=
  .next (frameSent s)

/-- POWER_ON (R23). -/
def execPowerOn (s : State) : Host.Outcome State Fault Refusal :=
  .next (restart .powerOn s)

/-- RESET_N (R23). -/
def execResetN (s : State) : Host.Outcome State Fault Refusal :=
  .next (if s.lines.resetN then s else restart .warm (s.atLines { s.lines with resetN := true }))

/-- MAINS_LOSS (R15). -/
def execMainsLoss (s : State) : Host.Outcome State Fault Refusal :=
  .next (if s.lines.mainsOk then lineEvent { s.lines with mainsOk := false } Ev.toReserve s else s)

/-- MAINS_RETURN (R15). -/
def execMainsReturn (s : State) : Host.Outcome State Fault Refusal :=
  .next (if s.lines.mainsOk then s else lineEvent { s.lines with mainsOk := true } Ev.toMains s)

/-- BATT_LOW_SET (R16). -/
def execBattLowSet (s : State) : Host.Outcome State Fault Refusal :=
  .next (if s.lines.battLow then s else lineEvent { s.lines with battLow := true } Ev.batteryLow s)

/-- BATT_LOW_CLEAR (R16). -/
def execBattLowClear (s : State) : Host.Outcome State Fault Refusal :=
  .next (if s.lines.battLow then lineEvent { s.lines with battLow := false } Ev.batteryGood s else s)

/-- STAFF_KEY (R12). -/
def execStaffKey (s : State) : Host.Outcome State Fault Refusal :=
  .next (if s.lines.staffKey then s else lineEvent { s.lines with staffKey := true } Ev.staffKeyTurned s)

/-- COMMISSION_KEY_CHANGE (R21). -/
def execCommissionKeyChange (active : Bool) (s : State) : Host.Outcome State Fault Refusal :=
  .next (if s.lines.commission = active then s else lineEvent { s.lines with commission := active } (Ev.keyTurned active) s)

/-- ENCODER_STEP (R28). -/
def execEncoderStep (s : State) : Host.Outcome State Fault Refusal :=
  .next (event s.toEnv Ev.encoderStep s)

/-- INDEX_EDGE (R29). -/
def execIndexEdge (s : State) : Host.Outcome State Fault Refusal :=
  .next (event s.toEnv Ev.indexEdge s)

/-- SILL_EDGE (R30). -/
def execSillEdge (landing : Fin 8) (side : Side) (s : State) : Host.Outcome State Fault Refusal :=
  .next (event s.toEnv (Ev.sillEdge landing side) s)

/-- SETTLE_WAIT_EXPIRY (R28). -/
def execSettleWaitExpiry (s : State) : Host.Outcome State Fault Refusal :=
  .next (event s.toEnv Ev.settleOut s)

/-- CORD_ACTIVE (R53). -/
def execCordActive (landing : Fin 8) (s : State) : Host.Outcome State Fault Refusal :=
  .next (if s.lines.cords.getLsbD landing.val then s else lineEvent { s.lines with cords := adjoin s.lines.cords landing.val } (Ev.landingCause landing (.cord landing)) s)

/-- GUARD_ACTIVE (R53). -/
def execGuardActive (landing : Fin 8) (s : State) : Host.Outcome State Fault Refusal :=
  .next (if s.lines.guards.getLsbD landing.val then s else lineEvent { s.lines with guards := adjoin s.lines.guards landing.val } (Ev.landingCause landing (.guard landing)) s)

/-- DRIVE_FAULT_ACTIVE (R53). -/
def execDriveFaultActive (s : State) : Host.Outcome State Fault Refusal :=
  .next (if s.lines.drvFault then s else lineEvent { s.lines with drvFault := true } (Ev.estop .driveFault) s)

/-- DRV_READY_ACTIVE (R60). -/
def execDrvReadyActive (s : State) : Host.Outcome State Fault Refusal :=
  .next (if s.lines.drvReady then s else lineEvent { s.lines with drvReady := true } Ev.driveReady s)

/-- START_WINDOW_EXPIRY (R44). -/
def execStartWindowExpiry (s : State) : Host.Outcome State Fault Refusal :=
  .next (event s.toEnv Ev.startOut s)

/-- CREEP_TIMER_EXPIRY (R47). -/
def execCreepTimerExpiry (s : State) : Host.Outcome State Fault Refusal :=
  .next (event s.toEnv Ev.creepOut s)

/-- SURVEY_TIMER_EXPIRY (R37). -/
def execSurveyTimerExpiry (s : State) : Host.Outcome State Fault Refusal :=
  .next (event s.toEnv Ev.surveyOut s)

/-- OPEN_LIM_ACTIVE (R74). -/
def execOpenLimActive (station : Fin 16) (s : State) : Host.Outcome State Fault Refusal :=
  .next (if s.lines.openLim.getLsbD station.val then s else lineEvent { s.lines with openLim := adjoin s.lines.openLim station.val } (Ev.openLimActive station) s)

/-- OPEN_LIM_INACTIVE (R78). -/
def execOpenLimInactive (station : Fin 16) (s : State) : Host.Outcome State Fault Refusal :=
  .next (if s.lines.openLim.getLsbD station.val then lineEvent { s.lines with openLim := strike s.lines.openLim station.val } (Ev.openLimInactive station) s else s)

/-- CLOSED_LIM_ACTIVE (R73). -/
def execClosedLimActive (station : Fin 16) (s : State) : Host.Outcome State Fault Refusal :=
  .next (if s.lines.closedLim.getLsbD station.val then s else lineEvent { s.lines with closedLim := adjoin s.lines.closedLim station.val } (Ev.closedLimActive station) s)

/-- CLOSED_LIM_INACTIVE (R76). -/
def execClosedLimInactive (station : Fin 16) (s : State) : Host.Outcome State Fault Refusal :=
  .next (if s.lines.closedLim.getLsbD station.val then lineEvent { s.lines with closedLim := strike s.lines.closedLim station.val } (Ev.closedLimInactive station) s else s)

/-- EDGE_ACTIVE (R72). -/
def execEdgeActive (station : Fin 16) (s : State) : Host.Outcome State Fault Refusal :=
  .next (if s.lines.edge.getLsbD station.val then s else lineEvent { s.lines with edge := adjoin s.lines.edge station.val } (Ev.edgeStruck station) s)

/-- EDGE_INACTIVE (R72). -/
def execEdgeInactive (station : Fin 16) (s : State) : Host.Outcome State Fault Refusal :=
  .next (if s.lines.edge.getLsbD station.val then lineEvent { s.lines with edge := strike s.lines.edge station.val } (Ev.edgeCleared station) s else s)

/-- DESCENT_TIMER_EXPIRY (R73). -/
def execDescentTimerExpiry (station : Fin 16) (s : State) : Host.Outcome State Fault Refusal :=
  .next (event s.toEnv (Ev.descentOut station) s)

/-- MAGNET_CHECK_EXPIRY (R71). -/
def execMagnetCheckExpiry (station : Fin 16) (s : State) : Host.Outcome State Fault Refusal :=
  .next (event s.toEnv (Ev.magnetOut station) s)

/-- EDGE_CLEAR_TIMER_EXPIRY (R72). -/
def execEdgeClearTimerExpiry (station : Fin 16) (s : State) : Host.Outcome State Fault Refusal :=
  .next (event s.toEnv (Ev.edgeClearOut station) s)

/-- RAISE_TIMER_EXPIRY (R74). -/
def execRaiseTimerExpiry (station : Fin 16) (s : State) : Host.Outcome State Fault Refusal :=
  .next (event s.toEnv (Ev.raiseOut station) s)

/-- ZONE_IN_ACTIVE (R90). -/
def execZoneInActive (zone : Fin 6) (s : State) : Host.Outcome State Fault Refusal :=
  .next (if s.lines.zoneIn.getLsbD zone.val then s else lineEvent { s.lines with zoneIn := adjoin s.lines.zoneIn zone.val } (Ev.zoneSounds zone) s)

/-- ZONE_IN_INACTIVE (R90). -/
def execZoneInInactive (zone : Fin 6) (s : State) : Host.Outcome State Fault Refusal :=
  .next (if s.lines.zoneIn.getLsbD zone.val then lineEvent { s.lines with zoneIn := strike s.lines.zoneIn zone.val } (Ev.zoneSilent zone) s else s)

/-- CLEARANCE_DEADLINE_EXPIRY (R101). -/
def execClearanceDeadlineExpiry (s : State) : Host.Outcome State Fault Refusal :=
  .next (event s.toEnv Ev.deadlineOut s)

/-- RESERVE_HOLD_EXPIRY (R103). -/
def execReserveHoldExpiry (s : State) : Host.Outcome State Fault Refusal :=
  .next (event s.toEnv Ev.holdOut s)

/-- ROUND_COMPLETE (R116). -/
def execRoundComplete (ringer : Fin 3) (s : State) : Host.Outcome State Fault Refusal :=
  .next (event s.toEnv (Ev.roundComplete ringer) s)

/-- ANSWER_GUARD_CLEAR (R117). -/
def execAnswerGuardClear (ringer : Fin 3) (s : State) : Host.Outcome State Fault Refusal :=
  .next (event s.toEnv (Ev.clearGuard ringer) s)

/-- REPEAT_GAP_END (R116). -/
def execRepeatGapEnd (ringer : Fin 3) (s : State) : Host.Outcome State Fault Refusal :=
  .next (event s.toEnv (Ev.gapEnd ringer) s)

/-- ANSWER_WINDOW_EXPIRY (R118). -/
def execAnswerWindowExpiry (ringer : Fin 3) (s : State) : Host.Outcome State Fault Refusal :=
  .next (event s.toEnv (Ev.windowOut ringer) s)

/-- ANSWER_INPUT (R117). -/
def execAnswerInput (line : Fin 10) (s : State) : Host.Outcome State Fault Refusal :=
  .next (if s.lines.answer.getLsbD line.val then s else lineEvent { s.lines with answer := adjoin s.lines.answer line.val } (Ev.answered line) s)

/-- PREPARING_END (R142). -/
def execPreparingEnd (s : State) : Host.Outcome State Fault Refusal :=
  .next (event s.toEnv Ev.preparingEnd s)

/-- BLOCK_BOUNDARY (R143). -/
def execBlockBoundary (s : State) : Host.Outcome State Fault Refusal :=
  .next (event s.toEnv Ev.blockEnd s)

/-- GAP_END (R143). -/
def execGapEnd (s : State) : Host.Outcome State Fault Refusal :=
  .next (event s.toEnv Ev.gapDone s)

/-- FIRE_PAUSE_END (R147). -/
def execFirePauseEnd (s : State) : Host.Outcome State Fault Refusal :=
  .next (event s.toEnv Ev.firePauseDone s)

/-- CALENDAR_TICK (R153). -/
def execCalendarTick (s : State) : Host.Outcome State Fault Refusal :=
  .next (tick s)

/-- MIDNIGHT_ROLLOVER (R153). -/
def execMidnightRollover (s : State) : Host.Outcome State Fault Refusal :=
  .next (tickWhen (rolloverNext s) s)

/-- TRIM_PERIOD_END (R156). -/
def execTrimPeriodEnd (s : State) : Host.Outcome State Fault Refusal :=
  .next (trimPeriodEnds s)

/-- CRYSTAL_STOP (R157). -/
def execCrystalStop (s : State) : Host.Outcome State Fault Refusal :=
  .next (if s.lines.crystal then crystalStops s else s)

/-- CRYSTAL_RESUME (R157). -/
def execCrystalResume (s : State) : Host.Outcome State Fault Refusal :=
  .next (if s.lines.crystal then s else crystalResumes s)

/-- OPENING_TIME_EVENT (R11). -/
def execOpeningTimeEvent (s : State) : Host.Outcome State Fault Refusal :=
  .next (tickWhen (openingNext s) s)

/-- START_INSTANT_REACHED (R165). -/
def execStartInstantReached (s : State) : Host.Outcome State Fault Refusal :=
  .next (tickWhen (startNext s) s)

/-- STEP_DUE_INSTANT (R167). -/
def execStepDueInstant (s : State) : Host.Outcome State Fault Refusal :=
  .next (tickWhen (stepNext s) s)

/-- CAUSE_INPUT_INACTIVE (R55). -/
def execCauseInputInactive (input : CauseInput) (s : State) : Host.Outcome State Fault Refusal :=
  .next (s.atLines (s.lines.quieted input))

/-- DRV_READY_INACTIVE (R60). -/
def execDrvReadyInactive (s : State) : Host.Outcome State Fault Refusal :=
  .next (s.atLines { s.lines with drvReady := false })

/-- ANSWER_INPUT_INACTIVE (R117). -/
def execAnswerInputInactive (line : Fin 10) (s : State) : Host.Outcome State Fault Refusal :=
  .next (s.atLines { s.lines with answer := strike s.lines.answer line.val })

/-- STAFF_KEY_INACTIVE (R12). -/
def execStaffKeyInactive (s : State) : Host.Outcome State Fault Refusal :=
  .next (s.atLines { s.lines with staffKey := false })

/-- RESET_N_INACTIVE (R23). -/
def execResetNInactive (s : State) : Host.Outcome State Fault Refusal :=
  .next (s.atLines { s.lines with resetN := false })

/-- STROKE_TIME_END (R107). -/
def execStrokeTimeEnd (ringer : Fin 3) (s : State) : Host.Outcome State Fault Refusal :=
  .next (event s.toEnv (Ev.strokeEnd ringer) s)

/-- LENGTH_OUT_OF_RANGE (R175). -/
def execLengthOutOfRange (len : Byte) (s : State) : Host.Outcome State Fault Refusal :=
  .next (badLength len s)

/-- MISSING_STOP_BIT (R175). -/
def execMissingStopBit (s : State) : Host.Outcome State Fault Refusal :=
  .next (dropReception s)

end Sys2Proof.Machine
end

