-- ==== Sys2Proof/Machine/Dispatch.lean ====
section
/-! DEFINITION. The meaning of every command: one arm for each row of spec/opcode_table.json. -/
namespace Sys2Proof.Machine

def exec (i : Instr) (s : State) : Host.Outcome State Fault Refusal :=
  match i with
  | .status h body => Sys2Proof.Machine.execStatus h body s
  | .commence h body => Sys2Proof.Machine.execCommence h body s
  | .restart h body => Sys2Proof.Machine.execRestart h body s
  | .wake h body => Sys2Proof.Machine.execWake h body s
  | .clearWake h body => Sys2Proof.Machine.execClearWake h body s
  | .forceNight h body => Sys2Proof.Machine.execForceNight h body s
  | .permitsSet h body => Sys2Proof.Machine.execPermitsSet h body s
  | .chainSet h body => Sys2Proof.Machine.execChainSet h body s
  | .landingSet h body => Sys2Proof.Machine.execLandingSet h body s
  | .landingRead h body => Sys2Proof.Machine.execLandingRead h body s
  | .clearDerive h body => Sys2Proof.Machine.execClearDerive h body s
  | .clearRead h body => Sys2Proof.Machine.execClearRead h body s
  | .survey h body => Sys2Proof.Machine.execSurvey h body s
  | .pnStart h body => Sys2Proof.Machine.execPnStart h body s
  | .pnStop h body => Sys2Proof.Machine.execPnStop h body s
  | .pnSweep h body => Sys2Proof.Machine.execPnSweep h body s
  | .pnNightLock h body => Sys2Proof.Machine.execPnNightLock h body s
  | .pnHalt h body => Sys2Proof.Machine.execPnHalt h body s
  | .pnReset h body => Sys2Proof.Machine.execPnReset h body s
  | .pnUnlock h body => Sys2Proof.Machine.execPnUnlock h body s
  | .pnRead h body => Sys2Proof.Machine.execPnRead h body s
  | .shutterSet h body => Sys2Proof.Machine.execShutterSet h body s
  | .shutterRead h body => Sys2Proof.Machine.execShutterRead h body s
  | .shutterClose h body => Sys2Proof.Machine.execShutterClose h body s
  | .shutterRaise h body => Sys2Proof.Machine.execShutterRaise h body s
  | .shutterStop h body => Sys2Proof.Machine.execShutterStop h body s
  | .shutterClear h body => Sys2Proof.Machine.execShutterClear h body s
  | .zoneSet h body => Sys2Proof.Machine.execZoneSet h body s
  | .zoneRead h body => Sys2Proof.Machine.execZoneRead h body s
  | .zoneDeclare h body => Sys2Proof.Machine.execZoneDeclare h body s
  | .zoneReset h body => Sys2Proof.Machine.execZoneReset h body s
  | .zoneDisable h body => Sys2Proof.Machine.execZoneDisable h body s
  | .zoneEnable h body => Sys2Proof.Machine.execZoneEnable h body s
  | .fireSet h body => Sys2Proof.Machine.execFireSet h body s
  | .bellSet h body => Sys2Proof.Machine.execBellSet h body s
  | .callPost h body => Sys2Proof.Machine.execCallPost h body s
  | .callCancel h body => Sys2Proof.Machine.execCallCancel h body s
  | .callRead h body => Sys2Proof.Machine.execCallRead h body s
  | .phraseDeclare h body => Sys2Proof.Machine.execPhraseDeclare h body s
  | .phraseLoad h body => Sys2Proof.Machine.execPhraseLoad h body s
  | .phraseRead h body => Sys2Proof.Machine.execPhraseRead h body s
  | .scriptSet h body => Sys2Proof.Machine.execScriptSet h body s
  | .scriptRead h body => Sys2Proof.Machine.execScriptRead h body s
  | .announce h body => Sys2Proof.Machine.execAnnounce h body s
  | .announceCancel h body => Sys2Proof.Machine.execAnnounceCancel h body s
  | .announceRead h body => Sys2Proof.Machine.execAnnounceRead h body s
  | .timeSet h body => Sys2Proof.Machine.execTimeSet h body s
  | .timeRead h body => Sys2Proof.Machine.execTimeRead h body s
  | .trimSet h body => Sys2Proof.Machine.execTrimSet h body s
  | .timebaseClear h body => Sys2Proof.Machine.execTimebaseClear h body s
  | .weekSet h body => Sys2Proof.Machine.execWeekSet h body s
  | .exceptionSet h body => Sys2Proof.Machine.execExceptionSet h body s
  | .exceptionRemove h body => Sys2Proof.Machine.execExceptionRemove h body s
  | .hoursRead h body => Sys2Proof.Machine.execHoursRead h body s
  | .stampRead h body => Sys2Proof.Machine.execStampRead h body s
  | .stampClear h body => Sys2Proof.Machine.execStampClear h body s
  | .stampMode h body => Sys2Proof.Machine.execStampMode h body s
  | .programmeSet h body => Sys2Proof.Machine.execProgrammeSet h body s
  | .programmeRead h body => Sys2Proof.Machine.execProgrammeRead h body s
  | .closingBegin h body => Sys2Proof.Machine.execClosingBegin h body s
  | .closingCancel h body => Sys2Proof.Machine.execClosingCancel h body s
  | .runRead h body => Sys2Proof.Machine.execRunRead h body s
  | .unknownOrder h code body => Sys2Proof.Machine.execUnknownOrder h code body s
  | .frameReceived bytes => Sys2Proof.Machine.execFrameReceived bytes s
  | .receiveGapTimeout => Sys2Proof.Machine.execReceiveGapTimeout s
  | .outboxFrameSent => Sys2Proof.Machine.execOutboxFrameSent s
  | .powerOn => Sys2Proof.Machine.execPowerOn s
  | .resetN => Sys2Proof.Machine.execResetN s
  | .mainsLoss => Sys2Proof.Machine.execMainsLoss s
  | .mainsReturn => Sys2Proof.Machine.execMainsReturn s
  | .battLowSet => Sys2Proof.Machine.execBattLowSet s
  | .battLowClear => Sys2Proof.Machine.execBattLowClear s
  | .staffKey => Sys2Proof.Machine.execStaffKey s
  | .commissionKeyChange active => Sys2Proof.Machine.execCommissionKeyChange active s
  | .encoderStep => Sys2Proof.Machine.execEncoderStep s
  | .indexEdge => Sys2Proof.Machine.execIndexEdge s
  | .sillEdge landing side => Sys2Proof.Machine.execSillEdge landing side s
  | .settleWaitExpiry => Sys2Proof.Machine.execSettleWaitExpiry s
  | .cordActive landing => Sys2Proof.Machine.execCordActive landing s
  | .guardActive landing => Sys2Proof.Machine.execGuardActive landing s
  | .driveFaultActive => Sys2Proof.Machine.execDriveFaultActive s
  | .drvReadyActive => Sys2Proof.Machine.execDrvReadyActive s
  | .startWindowExpiry => Sys2Proof.Machine.execStartWindowExpiry s
  | .creepTimerExpiry => Sys2Proof.Machine.execCreepTimerExpiry s
  | .surveyTimerExpiry => Sys2Proof.Machine.execSurveyTimerExpiry s
  | .openLimActive station => Sys2Proof.Machine.execOpenLimActive station s
  | .openLimInactive station => Sys2Proof.Machine.execOpenLimInactive station s
  | .closedLimActive station => Sys2Proof.Machine.execClosedLimActive station s
  | .closedLimInactive station => Sys2Proof.Machine.execClosedLimInactive station s
  | .edgeActive station => Sys2Proof.Machine.execEdgeActive station s
  | .edgeInactive station => Sys2Proof.Machine.execEdgeInactive station s
  | .descentTimerExpiry station => Sys2Proof.Machine.execDescentTimerExpiry station s
  | .magnetCheckExpiry station => Sys2Proof.Machine.execMagnetCheckExpiry station s
  | .edgeClearTimerExpiry station => Sys2Proof.Machine.execEdgeClearTimerExpiry station s
  | .raiseTimerExpiry station => Sys2Proof.Machine.execRaiseTimerExpiry station s
  | .zoneInActive zone => Sys2Proof.Machine.execZoneInActive zone s
  | .zoneInInactive zone => Sys2Proof.Machine.execZoneInInactive zone s
  | .clearanceDeadlineExpiry => Sys2Proof.Machine.execClearanceDeadlineExpiry s
  | .reserveHoldExpiry => Sys2Proof.Machine.execReserveHoldExpiry s
  | .roundComplete ringer => Sys2Proof.Machine.execRoundComplete ringer s
  | .answerGuardClear ringer => Sys2Proof.Machine.execAnswerGuardClear ringer s
  | .repeatGapEnd ringer => Sys2Proof.Machine.execRepeatGapEnd ringer s
  | .answerWindowExpiry ringer => Sys2Proof.Machine.execAnswerWindowExpiry ringer s
  | .answerInput line => Sys2Proof.Machine.execAnswerInput line s
  | .preparingEnd => Sys2Proof.Machine.execPreparingEnd s
  | .blockBoundary => Sys2Proof.Machine.execBlockBoundary s
  | .gapEnd => Sys2Proof.Machine.execGapEnd s
  | .firePauseEnd => Sys2Proof.Machine.execFirePauseEnd s
  | .calendarTick => Sys2Proof.Machine.execCalendarTick s
  | .midnightRollover => Sys2Proof.Machine.execMidnightRollover s
  | .trimPeriodEnd => Sys2Proof.Machine.execTrimPeriodEnd s
  | .crystalStop => Sys2Proof.Machine.execCrystalStop s
  | .crystalResume => Sys2Proof.Machine.execCrystalResume s
  | .openingTimeEvent => Sys2Proof.Machine.execOpeningTimeEvent s
  | .startInstantReached => Sys2Proof.Machine.execStartInstantReached s
  | .stepDueInstant => Sys2Proof.Machine.execStepDueInstant s
  | .causeInputInactive input => Sys2Proof.Machine.execCauseInputInactive input s
  | .drvReadyInactive => Sys2Proof.Machine.execDrvReadyInactive s
  | .answerInputInactive line => Sys2Proof.Machine.execAnswerInputInactive line s
  | .staffKeyInactive => Sys2Proof.Machine.execStaffKeyInactive s
  | .resetNInactive => Sys2Proof.Machine.execResetNInactive s
  | .strokeTimeEnd ringer => Sys2Proof.Machine.execStrokeTimeEnd ringer s
  | .lengthOutOfRange len => Sys2Proof.Machine.execLengthOutOfRange len s
  | .missingStopBit => Sys2Proof.Machine.execMissingStopBit s

end Sys2Proof.Machine
end

