-- ==== Sys2Proof/Safety.lean ====
section
/-! DEFINITION. The vocabulary of the statements: when an order is taken at once, when no block has anything to do of
itself, how a statement writes the state a command leaves, and the invariants every step keeps. -/
namespace Sys2Proof

/-- The head, code and body of the frame an order row stands for; none for the other rows (R182). -/
def Instr.order : Instr → Option (OrderHead × Byte × List Byte)
  | .status h body => some (h, 0x01, body)
  | .commence h body => some (h, 0x02, body)
  | .restart h body => some (h, 0x03, body)
  | .wake h body => some (h, 0x04, body)
  | .clearWake h body => some (h, 0x05, body)
  | .forceNight h body => some (h, 0x06, body)
  | .permitsSet h body => some (h, 0x07, body)
  | .chainSet h body => some (h, 0x10, body)
  | .landingSet h body => some (h, 0x11, body)
  | .landingRead h body => some (h, 0x12, body)
  | .clearDerive h body => some (h, 0x13, body)
  | .clearRead h body => some (h, 0x14, body)
  | .survey h body => some (h, 0x15, body)
  | .pnStart h body => some (h, 0x16, body)
  | .pnStop h body => some (h, 0x17, body)
  | .pnSweep h body => some (h, 0x18, body)
  | .pnNightLock h body => some (h, 0x19, body)
  | .pnHalt h body => some (h, 0x1A, body)
  | .pnReset h body => some (h, 0x1B, body)
  | .pnUnlock h body => some (h, 0x1C, body)
  | .pnRead h body => some (h, 0x1D, body)
  | .shutterSet h body => some (h, 0x20, body)
  | .shutterRead h body => some (h, 0x21, body)
  | .shutterClose h body => some (h, 0x22, body)
  | .shutterRaise h body => some (h, 0x23, body)
  | .shutterStop h body => some (h, 0x24, body)
  | .shutterClear h body => some (h, 0x25, body)
  | .zoneSet h body => some (h, 0x30, body)
  | .zoneRead h body => some (h, 0x31, body)
  | .zoneDeclare h body => some (h, 0x32, body)
  | .zoneReset h body => some (h, 0x33, body)
  | .zoneDisable h body => some (h, 0x34, body)
  | .zoneEnable h body => some (h, 0x35, body)
  | .fireSet h body => some (h, 0x36, body)
  | .bellSet h body => some (h, 0x40, body)
  | .callPost h body => some (h, 0x41, body)
  | .callCancel h body => some (h, 0x42, body)
  | .callRead h body => some (h, 0x43, body)
  | .phraseDeclare h body => some (h, 0x50, body)
  | .phraseLoad h body => some (h, 0x51, body)
  | .phraseRead h body => some (h, 0x52, body)
  | .scriptSet h body => some (h, 0x60, body)
  | .scriptRead h body => some (h, 0x61, body)
  | .announce h body => some (h, 0x62, body)
  | .announceCancel h body => some (h, 0x63, body)
  | .announceRead h body => some (h, 0x64, body)
  | .timeSet h body => some (h, 0x70, body)
  | .timeRead h body => some (h, 0x71, body)
  | .trimSet h body => some (h, 0x72, body)
  | .timebaseClear h body => some (h, 0x73, body)
  | .weekSet h body => some (h, 0x74, body)
  | .exceptionSet h body => some (h, 0x75, body)
  | .exceptionRemove h body => some (h, 0x76, body)
  | .hoursRead h body => some (h, 0x77, body)
  | .stampRead h body => some (h, 0x78, body)
  | .stampClear h body => some (h, 0x79, body)
  | .stampMode h body => some (h, 0x7A, body)
  | .programmeSet h body => some (h, 0x80, body)
  | .programmeRead h body => some (h, 0x81, body)
  | .closingBegin h body => some (h, 0x82, body)
  | .closingCancel h body => some (h, 0x83, body)
  | .runRead h body => some (h, 0x84, body)
  | .unknownOrder h code body => some (h, code, body)
  | _ => none

namespace Machine

/-! ## The link as an order finds it -/

/-- No order waits and the intake condition holds: an order that comes is taken at once (R176, R177). -/
abbrev State.Ready (s : State) : Prop := s.lnk.rxBuf = [] ∧ s.lnk.outbox.length + s.lnk.held.length ≤ 27

/-- A held answer, when the order asks for one, has a place in the held-answer list (R178). -/
abbrev State.MayHold (s : State) (h : OrderHead) : Prop := h.held = true → s.lnk.held.length < 4

/-- The link once an order has come whole and been answered. -/
def Lnk.answered (l : Lnk) (h : OrderHead) (code : Byte) (out : Outcome) (r : Reason) (data : List Byte) : Lnk :=
  { l with reception := none, outbox := l.outbox ++ [.answer h.tag code out r data] }

/-- The link once an order that begins an operation has come whole: answered STARTED, or its answer held (R178). -/
def Lnk.began (l : Lnk) (h : OrderHead) (code : Byte) (op : HeldOp) (data : List Byte) : Lnk :=
  if h.held then { l with reception := none, held := l.held ++ [⟨h.tag, code, op⟩] }
  else l.answered h code .started .none data

/-- The state with an order answered and nothing else done. -/
def State.answered (s : State) (h : OrderHead) (code : Byte) (out : Outcome) (r : Reason) (data : List Byte) : State :=
  { s with lnk := s.lnk.answered h code out r data }

/-- The state in which the blocks hold `st`, the output lines following them, and the link is `l`. -/
def State.holding (s : State) (st : Store) (l : Lnk) : State :=
  { toStore := st.driven s.phs, toEnv := s.toEnv, lnk := l, pending := s.pending }

/-- The same, with the input lines, the Time Base and the Phrase Store at `v`. -/
def State.holdingIn (s : State) (v : Env) (st : Store) (l : Lnk) : State :=
  { toStore := st.driven v.phs, toEnv := v, lnk := l, pending := s.pending }

/-! ## When no block has anything to do of itself -/

/-- No fire condition, no settle to judge, no shutter waiting for its landing, or for a retry it could make, no step deferred and no
NIGHT step waiting. -/
structure Store.Still (st : Store) : Prop where
  noFire : st.fzu.fire = false
  noSettle : ¬ (st.pnc.state = .settling ∧ (st.cht.settled = true ∨ st.pnc.purpose = .fire))
  noRelease : ∀ i : Fin 16, ∀ sh, st.shc.stations[i] = some sh →
    sh.state ≠ .releaseWait ∧ (sh.retryWait = true → st.demandOff = false)
  noDeferred : (st.cpu.stepsWhere fun _ o => o == .deferred) = []
  noNight : (st.cpu.stepsWhere fun a o => a == .night && o == .waiting) = []

/-- Nothing but assignment and the taking of the announcement queue can follow, and no announcement waits for an idle player,
no call for an idle ringer. -/
structure Store.Calm (st : Store) : Prop extends st.Still where
  noHead : st.anp.queue = [] ∨ st.anp.state ≠ .idle ∨ st.anp.fire = true
  noAssign : st.blx.assign = st.blx

/-! ## What the statements say about a state -/

/-- Every landing a present shutter names is present (R2). -/
abbrev State.LinksPresent (s : State) : Prop :=
  ∀ (i : Fin 16) (sh : Shutter) (l : Fin 8), s.shc.stations[i] = some sh → sh.landing = some l → s.cht.landings[l].present = true

/-- The fire script, when one is named, holds an item (R2). -/
abbrev State.FireScriptHolds (s : State) : Prop :=
  ∀ k : Fin 16, s.fzu.fireScript = some k → s.anp.scripts[k].items ≠ []

/-- The command leaves a shutter `x` at the station. -/
abbrev State.Leaves (s : State) (c : Instr) (i : Fin 16) (x : Shutter) : Prop :=
  ∃ t, exec c s = .next t ∧ t.shc.stations[i] = some x

/-- A grille whose supply is withdrawn: halted, and marked when the fire calls for its raise (R77, R86, log 21). -/
def State.withdrawn (s : State) (sh : Shutter) : Shutter :=
  { sh.restIn .haltedPart with supplyWait := sh.openOnFire && s.zoneInFire sh && s.fzu.fire }

/-- No cause input is active: a cord or guard counts where its landing is present (R41). -/
abbrev State.NoCauseInput (s : State) : Prop :=
  s.lines.drvFault = false ∧ ∀ l : Fin 8, s.cht.landings[l].present = true →
    s.lines.cords.getLsbD l.val = false ∧ s.lines.guards.getLsbD l.val = false

/-- The first start condition of R34 that a SURVEY fails. -/
def State.surveyRefusal (s : State) : Option Reason :=
  if s.msu.key = false then some .locked
  else if s.cht.survey ≠ none then some .busy
  else if s.msu.mode ≠ .setup ∧ s.msu.mode ≠ .trading then some .mode
  else if s.fzu.fire = true then some .fire
  else if s.msu.source = .reserve then some .power
  else if s.cht.settings.loopLength = 0 ∨ s.cht.settings.cars = 0 ∨ ∀ l : Fin 8, s.cht.landings[l].present = false then
    some .range
  else if s.pnc.state ≠ .halted ∨ s.allLinkedOpen = false then some .state
  else if s.lines.drvReady = false then some .notReady
  else none

/-- The clear-list entry comes no later than another in the order of R31 and R32: the larger clear set first, then the
lower position. -/
abbrev ClearEntry.Before (e x : ClearEntry) : Prop := card x.set < card e.set ∨ card x.set = card e.set ∧ e.pos ≤ x.pos

/-- The first check of R50 that a sweep claimed in CLOSING fails, out of a fire and out of NIGHT_LOCK. -/
def State.sweepRefusal (s : State) : Option Reason :=
  if s.pnc.state ≠ .halted ∧ s.pnc.state ≠ .running then some .state
  else if s.msu.source = .reserve then some .power
  else if s.cht.position = none ∨ s.cht.clearList = [] then some .state
  else if s.lines.drvReady = false then some .notReady
  else if s.allLinkedOpen = false ∨ ¬ s.NoCauseInput then some .state
  else none

/-- The first check that a PN-SWEEP fails, those of NIGHT_LOCK among them (R50). -/
def State.pnSweepRefusal (s : State) : Option Reason :=
  if s.pnc.state = .nightLock then (if s.msu.mode = .setup ∨ s.msu.mode = .night then some .mode else none)
  else if s.pnc.state ≠ .halted ∧ s.pnc.state ≠ .running then some .state
  else if s.msu.mode = .setup ∨ s.msu.mode = .night then some .mode
  else if s.fzu.fire = true then some .fire
  else s.sweepRefusal

/-- The first check of R141 that an announcement fails, posted by ANNOUNCE or by a step; the speaker set 0 stands for the
script's default (R184). -/
def State.announceRefusal (s : State) (k : Fin 16) (cls : AnnClass) (sp : BitVec 8) : Option Reason :=
  if (if sp = 0 then s.anp.scripts[k].speakers else sp) = 0 then some .range
  else if s.anp.scripts[k].items = [] then some .state
  else if s.msu.mode ≠ .closing ∧ ¬ (s.msu.mode = .trading ∧ cls = .routine) then some .mode
  else if s.msu.source = .reserve ∧ s.msu.announcePermit = false then some .power
  else if s.fzu.fire = true then some .fire
  else if 6 ≤ s.anp.queue.length then some .full
  else none

/-- The first check of R111 that a post fails, by CALL-POST or by a step; a merge needs no room (R112). -/
def State.callRefusal (s : State) (p : Post) : Option Reason :=
  if p.lines = 0 ∨ p.lines &&& ~~~ s.blx.present ≠ 0 ∨ p.repeats < 1 ∨ 9 < p.repeats ∨
      (p.escalate = true ∧ p.cls ≠ .urgent) then some .range
  else if (p.cls = .routine ∧ s.msu.mode = .night) ∨ (p.cls = .closing ∧ (s.msu.mode = .setup ∨ s.msu.mode = .night)) ∨
      (p.cls = .watch ∧ (s.msu.mode = .setup ∨ s.msu.mode = .trading)) then some .mode
  else if (p.cls = .routine ∨ p.cls = .closing) ∧ s.msu.source = .reserve ∧ s.msu.bellPermit = false then some .power
  else if s.blx.merge p = none ∧ 16 ≤ s.blx.calls.length then some .full
  else none

/-- Paternoster Control after a stop with no target: SETTLING, or, the chain settled already, at rest in HALTED or
NIGHT_LOCK (R46, R48, R52). -/
def State.stoppedBare (s : State) : Pnc :=
  let r : Pnc := { s.pnc with state := .settling, purpose := .normal, missCount := 0, target := none, startTimer := none, creepTimer := none }
  if s.cht.settled = true then { r with state := if s.msu.mode = .night then .nightLock else .halted, creepPending := false } else r

/-- Paternoster Control after a stop aimed at a position: CREEPING toward it (R46, R47). -/
def State.creepingTo (s : State) (target : Nat) : Pnc :=
  { s.pnc with state := .creeping, purpose := .normal, missCount := 0, target := some target, creepPending := false, startTimer := none, creepTimer := some (s.tmb.ownTime + s.cht.settings.creepTimeout * 100) }

/-- The settled chain stands within the level tolerance of its target (R48). -/
abbrev State.AtTarget (s : State) : Prop :=
  ∃ p t, s.cht.position = some p ∧ s.pnc.target = some t ∧
    circDist s.cht.settings.loopLength p t ≤ s.cht.settings.levelTol

/-- The settled chain has missed its target (R48); at an unknown position it has too (log 36). -/
abbrev State.OffTarget (s : State) : Prop :=
  ∃ t, s.pnc.target = some t ∧
    ∀ p, s.cht.position = some p → s.cht.settings.levelTol < circDist s.cht.settings.loopLength p t

/-- A first miss of a stop that no creep follows: the gate is closed (R49), or there is nothing to choose a target from
(logs 19, 36). -/
abbrev State.MissedForGood (s : State) : Prop :=
  s.OffTarget ∧ s.pnc.missCount = 0 ∧ (s.gateOpen = false ∨ s.cht.position = none ∨ s.cht.clearList = [])

/-- The Chain Tracker once the settle wait has run out (R28). -/
def State.settledCht (s : State) : Cht := { s.cht with settled := true, settleWait := none }

/-- Paternoster Control at rest at the end of a stop: no target, the miss count 0, no timer (R48, R49, log 18). -/
def State.restedIn (s : State) (st : PnState) : Pnc :=
  { s.pnc with state := st, target := none, missCount := 0, creepPending := false, startTimer := none, creepTimer := none }

/-- Paternoster Control after a first miss: CREEPING toward a target chosen anew, the miss count 1 (R49, log 18). -/
def State.reaimedAt (s : State) (target : Nat) : Pnc :=
  { s.pnc with state := .creeping, target := some target, missCount := 1, creepPending := false, startTimer := none, creepTimer := some (s.tmb.ownTime + s.cht.settings.creepTimeout * 100) }

/-- The entry to which a chain that comes to rest under fire goes on creeping; none where R60 holds it: nothing pending, a
pending landing clear, the gate closed, the drive not ready or on RESERVE, or no fire target. -/
def State.restTarget (s : State) : Option Nat :=
  if s.pendingSet = 0 ∨ s.pendingSet &&& { s with cht := s.settledCht }.clearNow ≠ 0 then none
  else if s.gateOpen = false ∨ s.lines.drvReady = false ∨ s.msu.source = .reserve then none
  else s.cht.position.bind s.fireTarget

/-- The sweep under way has reached NIGHT_LOCK: its held answer is DONE, and the WAITING SWEEP steps of the programme that
claimed it are (R51, R63, R169). -/
abbrev State.SweepLocked (s t : State) (offers : List Offer) : Prop :=
  .ended .pnSweep .done .none [] ∈ offers ∧ ∀ run, s.cpu.run = some run → ∃ run', t.cpu.run = some run' ∧
    run'.cursor = run.cursor ∧ ∀ (i : Nat) (x : Step) (y : StepRecord), s.cpu.programme[i]? = some x → run.steps[i]? = some y →
      run'.steps[i]? = some
        (if s.pnc.sweepClaimed = true ∧ x.action = .sweep ∧ y.outcome = .waiting then ⟨.done, .none, []⟩ else y)

/-- The sweep under way has ended before NIGHT_LOCK for a reason: its held answer with it, and the WAITING SWEEP steps of
the programme that claimed it FAILED (R51, R63, R169). -/
abbrev State.SweepEnded (s t : State) (offers : List Offer) (r : Reason) : Prop :=
  .ended .pnSweep .ended r [] ∈ offers ∧ ∀ run, s.cpu.run = some run → ∃ run', t.cpu.run = some run' ∧
    run'.cursor = run.cursor ∧ ∀ (i : Nat) (x : Step) (y : StepRecord), s.cpu.programme[i]? = some x → run.steps[i]? = some y →
      run'.steps[i]? = some
        (if s.pnc.sweepClaimed = true ∧ x.action = .sweep ∧ y.outcome = .waiting then ⟨.failed, r, []⟩ else y)

/-- The result a GRILLES step records for a station out of a fire: none where the grille is CLOSED or its close is
accepted (R81, R170). -/
def State.grilleResult (s : State) (j : Fin 16) : Reason :=
  match s.shc.stations[j] with
  | none => .range
  | some sh =>
    if sh.kind = .fire then .range
    else if sh.state = .closed then .none
    else if sh.state ≠ .opened ∧ sh.state ≠ .haltedPart then .state
    else if s.lines.openLim.getLsbD j.val = true ∧ s.lines.closedLim.getLsbD j.val = true then .fault
    else if sh.landing ≠ none ∧ s.demand ≠ .off then .moving
    else if sh.state = .opened ∧ s.landingClear sh = false then .notClear
    else if s.msu.source = .reserve ∧ s.msu.grillePermit = false then .power
    else .none

/-- What a GRILLES step over a set of stations records: FAILED with the lowest-numbered refusal, else DONE (R170). -/
def State.grillesRecord (s : State) (set : BitVec 16) : StepRecord :=
  let results := ((List.finRange 16).filter fun j => set.getLsbD j.val).map fun j => (j, s.grilleResult j)
  match results.find? fun x => x.2 != .none with
  | some x => ⟨.failed, x.2, results⟩
  | none => ⟨.done, .none, results⟩

/-- The grille at a station after a GRILLES step: driven down where its close is accepted (R75, R170). -/
def State.grilleTaken (s : State) (set : BitVec 16) (now : Nat) (j : Fin 16) (sh : Shutter) : Shutter :=
  if set.getLsbD j.val = true ∧ s.grilleResult j = .none ∧ sh.state ≠ .closed then sh.drivenDown now else sh

/-- A call that the entry to NIGHT ends, or the passage through it to TRADING (R123). -/
def State.endsAtNight (s : State) (c : Call) : Bool :=
  c.cls == .routine || c.cls == .closing || (c.cls == .watch && s.msu.wake != 0)

/-- The command takes the player on from item `i`, repeat `rep`, with the skip record `sk`: the preparing ends where the
chime is off or not READY, or a phrase ends, the chime's or that of an item with a gap of 0, or an item's gap (R143). -/
abbrev State.GoesOn (s : State) (c : Instr) (i rep : Nat) (sk : Skip) : Prop :=
  (c = .preparingEnd ∧ s.anp.state = .preparing ∧ (s.anp.script.chime = true → s.phs.ready 0 = false) ∧ i = 0 ∧ rep = 0 ∧
    sk = { s.anp.skip with chime := s.anp.skip.chime || s.anp.script.chime }) ∨
  (c = .blockBoundary ∧ s.anp.state = .sounding ∧ s.anp.pendingCut = false ∧
    (∃ k : Fin 64, s.anp.sounding = some k ∧ s.phs.slots[k].length ≤ s.anp.cursor.block + 1) ∧ sk = s.anp.skip ∧
    (s.anp.cursor.onItem = false ∧ i = 0 ∧ rep = 0 ∨
      s.anp.cursor.onItem = true ∧ i = s.anp.cursor.item ∧ rep = s.anp.cursor.rep + 1 ∧
        s.anp.script.items[i]?.map Item.gap = some 0)) ∨
  (c = .gapEnd ∧ s.anp.state = .gap ∧ s.anp.firePause = false ∧ i = s.anp.cursor.item ∧ rep = s.anp.cursor.rep + 1 ∧
    sk = s.anp.skip)

/-- From item `i`, repeat `rep` on, nothing of item `m` is to sound: its repeats are done, or its slot is not READY (R143). -/
abbrev State.PassesOver (s : State) (i rep m : Nat) : Prop :=
  ∀ x, s.anp.script.items[m]? = some x → x.repeats ≤ (if m = i then rep else 0) ∨ s.phs.ready (slotOf x.slot) = false

/-- The skip record after the items from `i` to before `j` are passed over, from repeat `rep` of the first: those with a
repeat left are noted (R143). -/
def State.skipping (s : State) (i rep j : Nat) (sk : Skip) : Skip :=
  { sk with items := ((List.range' i (j - i)).filter fun m =>
      s.anp.script.items[m]?.any fun x => (if m = i then rep else 0) < x.repeats).foldl adjoin sk.items }

/-- The store with another record at one shutter station. -/
def Store.withStation (st : Store) (i : Fin 16) (sh : Option Shutter) : Store :=
  { st with shc := { stations := put st.shc.stations i sh } }

/-- The Fire Zone Unit with another record of a zone, the fire condition and the clearance deadline following it (R96,
R100). -/
def Fzu.withZone (f : Fzu) (z : Fin 6) (x : Zone) (now : Nat) : Fzu :=
  let fire := anyOf (put f.zones z x) fun x => x.state != .quiet
  { f with zones := put f.zones z x, fire := fire, deadline := if fire = f.fire then f.deadline else if fire then .running (now + f.clearanceWait * 100) else .cleared }

/-- The settings, tables and clock of `s` stand in `t`. -/
structure State.SameSettings (s t : State) : Prop where
  tmb : t.tmb = s.tmb
  phs : t.phs = s.phs
  settings : t.cht.settings = s.cht.settings
  landings : t.cht.landings = s.cht.landings
  clearList : t.cht.clearList = s.cht.clearList
  present : t.blx.present = s.blx.present
  scripts : t.anp.scripts = s.anp.scripts
  programme : t.cpu.programme = s.cpu.programme
  start : t.cpu.start = s.cpu.start

/-- The answer of an order stands where the outbox ended. -/
abbrev State.Answers (s t : State) (h : OrderHead) (code : Byte) (out : Outcome) (r : Reason) (data : List Byte) : Prop :=
  t.lnk.outbox[s.lnk.outbox.length]? = some (.answer h.tag code out r data)

/-! ## What a restart leaves in each block -/

/-- Paternoster Control after a warm restart from `s` that has come to `t` (R65): the first line of its table, and from
HALTED under fire the rest evaluated by R60, the position being unknown. -/
def State.warmPnc (s t : State) : Pnc :=
  let r : Pnc := { s.pnc with state := .halted, purpose := .normal, target := none, missCount := 0, causes := .empty, sweepCount := 0, creepPending := false, startTimer := none, creepTimer := none, sweepClaimed := false }
  if s.pnc.startFaults = 3 then { r with state := .lockedOut }
  else if s.msu.mode = .night then { r with state := .nightLock }
  else if s.lines.mainsOk = false then { r with state := .powerStop }
  else if ¬ s.NoCauseInput then
    { r with
      state := .estop
      causes := { CauseSet.empty with
        cord := setOf 8 fun l => s.lines.cords.getLsbD l.val && s.cht.landings[l].present
        guard := setOf 8 fun l => s.lines.guards.getLsbD l.val && s.cht.landings[l].present
        driveFault := s.lines.drvFault } }
  else if t.fzu.fire = false then r
  else if t.pendingSet = 0 then { r with state := .held }
  else if t.gateOpen = false then { r with state := .held, creepPending := true }
  else if s.lines.drvReady = false then { r with state := .held }
  else { r with state := .creeping, purpose := .fire, creepTimer := some (s.tmb.ownTime + 4 * s.cht.settings.creepTimeout * 100) }

/-- A zone after a warm restart: brought into line with its input (R90, R105). -/
def State.warmZone (s : State) (z : Fin 6) : Zone :=
  let x := s.fzu.zones[z]
  if x.enabled = false then x
  else if s.lines.zoneIn.getLsbD z.val = true then
    (if x.state = .alarmed then x else { x with state := .alarmed, declared := false })
  else if x.state = .alarmed ∧ x.declared = false then { x with state := .standing }
  else x

/-- The warm restart finds a fire shutter at its open limit alone, its magnet held on, its zone in fire: an unlinked one is
released, a linked one waits (R84, R88). -/
def State.heldOpenInFire (s t : State) (i : Fin 16) (sh : Shutter) : Bool :=
  sh.kind == .fire && s.lines.openLim.getLsbD i.val && !s.lines.closedLim.getLsbD i.val && s.out.outA.getLsbD i.val &&
    t.zoneInFire sh

/-- A reserve release comes with the warm restart (R87, R102, R105): a reserve period with a hold of 0 begins, or the
battery is low on RESERVE and was not so before (log 16). -/
abbrev State.WarmRelease (s : State) : Prop :=
  s.lines.mainsOk = false ∧
    (if s.lines.battLow = true then ¬ (s.msu.source = .reserve ∧ s.msu.batteryLow = true)
      else s.fzu.hold ≠ .expired ∧ s.fzu.reserveHold = 0)

/-- A present shutter after a warm restart from `s` that has come to `t` (R88): its record and fault set kept (NOT_PROVEN
in a CLOSED grille too, log 55), its state by its limits, then the treatments of R84, R86 and R87. -/
def State.warmShutter (s t : State) (i : Fin 16) (sh : Shutter) : Shutter :=
  let now := s.tmb.ownTime
  let still : Shutter := { sh with obstr := 0, proving := false, retryWait := false, descent := .stopped, magnetCheck := none, edgeClear := none, raiseTimer := none, upFire := false, fireWait := false, supplyWait := false }
  let dropped : Shutter := { still with state := .descending, descent := .running now 0, magnetCheck := some (now + 200), proving := true }
  let conflicting (x : Shutter) : Shutter :=
    if s.lines.openLim.getLsbD i.val = true then { x with faults := x.faults ||| FaultKind.limitConflict } else x
  let raised (x : Shutter) : Shutter :=
    if sh.openOnFire = true ∧ t.zoneInFire sh = true then
      (if s.lines.mainsOk = true ∨ s.lines.battLow = false then
        { x with state := .raising, raiseTimer := some (now + sh.raiseTimeout * 100), upFire := true }
      else { x with supplyWait := true })
    else x
  match s.lines.openLim.getLsbD i.val, s.lines.closedLim.getLsbD i.val, sh.kind with
  | true, false, .grille => { still with state := .opened }
  | true, false, .fire =>
    if s.out.outA.getLsbD i.val = false then dropped
    else if sh.landing = none ∧ t.zoneInFire sh = true then dropped
    else if s.WarmRelease then
      (if sh.landing = none then dropped else { dropped with faults := dropped.faults ||| FaultKind.forced })
    else { still with state := if t.zoneInFire sh = true then .releaseWait else .opened }
  | false, true, .fire => { still with state := .closed }
  | false, true, .grille => raised { still with state := .closed }
  | _, _, .fire => conflicting { still with state := .descending, descent := .running now 0 }
  | _, _, .grille => raised (conflicting { still with state := .haltedPart })

/-- The standing calls of the zones in fire, none out of a fire, the one for each ringer from ringer 0 on (R121, R126). -/
def State.standingRingers (t : State) : List Ringer :=
  let evac : BitVec 10 := setOf 10 fun l =>
    t.blx.present.getLsbD l.val && anyOf t.fzu.zones fun z => z.state != .quiet && z.lines.getLsbD l.val
  let stands (k : Ringing) (lines : BitVec 10) (code : BellCode) : List Ringer :=
    if lines = 0 then [] else [⟨.striking, some k, lines, ⟨code, 0, 0, true⟩, none⟩]
  if t.fzu.fire = true then stands .evac evac [] ++ stands .alert (t.blx.present &&& ~~~ evac) t.fzu.alertCode else []

/-- What every restart leaves in the Bell Exchange and the Announcement Player: nothing waiting, ringing or playing but
the standing calls and the first round of a fire that is on (R126, R146, R151); the relays of the fire round are on. -/
structure State.SoundRestarted (t : State) : Prop where
  calls : t.blx.queue = [] ∧ t.blx.nextNumber = 1
  ringers : ∀ r : Fin 3, t.blx.ringers[r] = (t.standingRingers[r.val]?).getD Ringer.idle
  player : t.anp = { Anp.reset with
    scripts := t.anp.scripts, fire := t.fzu.fire, state := if t.fzu.fire = true then .preparing else .idle, timer := if t.fzu.fire = true then some (t.tmb.ownTime + 25) else none }
  speakers : t.out.spk = (if t.fzu.fire = true then 0xFF else 0) ∧ t.out.ampEn = t.fzu.fire

/-- What a warm restart leaves, block by block (R1, R9, R24, R65, R88, R105, R126, R127, R151, R152, R163, R181). -/
structure State.WarmRestarted (s t : State) : Prop where
  mode : t.msu.mode = if s.msu.mode = .closing then .trading else s.msu.mode
  wake : t.msu.wake = s.msu.wake
  source : t.msu.source = if s.lines.mainsOk then .mains else .reserve
  permits : t.msu.bellPermit = s.msu.bellPermit ∧ t.msu.announcePermit = s.msu.announcePermit ∧ t.msu.grillePermit = s.msu.grillePermit
  run : t.cpu.run = none
  read : t.msu.batteryLow = s.lines.battLow ∧ t.msu.key = s.lines.commission
  position : t.cht.position = none
  tracker : t.cht.settled = false ∧ t.cht.settleWait = some (s.tmb.ownTime + 50) ∧ t.cht.survey = none ∧
    t.cht.surveyTimer = none
  paternoster : t.pnc = s.warmPnc t
  zones : ∀ z : Fin 6, t.fzu.zones[z] = s.warmZone z
  fire : t.fzu.fire = t.anyInFire
  deadline : t.fzu.deadline =
    if t.fzu.fire = false then .cleared
    else if ∃ i : Fin 16, s.shc.stations[i].any (fun sh => sh.linked && s.heldOpenInFire t i sh) = true then
      .running (s.tmb.ownTime + s.fzu.clearanceWait * 100)
    else .spent
  hold : t.fzu.hold =
    if s.lines.mainsOk = true then .stopped
    else if s.fzu.hold = .expired ∨ s.lines.battLow = true ∨ s.fzu.reserveHold = 0 then .expired
    else .running (s.tmb.ownTime + s.fzu.reserveHold * 6000)
  fireSettings : t.fzu = { s.fzu with zones := t.fzu.zones, fire := t.fzu.fire, deadline := t.fzu.deadline, hold := t.fzu.hold }
  stations : ∀ i : Fin 16, t.shc.stations[i] = s.shc.stations[i].map (s.warmShutter t i)
  bells : t.blx.gap = s.blx.gap ∧ t.blx.window = s.blx.window
  sound : t.SoundRestarted
  outputs : t.toStore.driven t.phs = t.toStore
  settings : s.SameSettings { t with cpu := { t.cpu with start := s.cpu.start } }
  rxBuf : t.lnk.rxBuf = []
  held : t.lnk.held = []
  first : t.lnk.outbox.head? = some (.notice (.restarted .warm))
  unanswered : ∀ f ∈ t.lnk.outbox, ∃ n, f = .notice n

/-- What a power-on or cold restart leaves, block by block (R1, R24, R39, R66, R104, R126, R127, R151, R152, R163, R181);
the paternoster is HALTED whatever the source, and HELD under fire (R60, log 17). -/
structure State.ColdRestarted (k : RestartKind) (s t : State) : Prop where
  lines : t.lines = s.lines
  mode : t.msu.mode = .setup
  wake : t.msu.wake = 0
  source : t.msu.source = if s.lines.mainsOk then .mains else .reserve
  permits : t.msu.bellPermit = false ∧ t.msu.announcePermit = false ∧ t.msu.grillePermit = false
  settings : t.cht.settings = .reset
  landings : t.cht.landings = Vector.replicate 8 ⟨false, [], []⟩
  clearList : t.cht.clearList = []
  position : t.cht.position = none
  read : t.msu.batteryLow = s.lines.battLow ∧ t.msu.key = s.lines.commission
  tracker : t.cht.settled = false ∧ t.cht.settleWait = some (t.tmb.ownTime + 50) ∧ t.cht.survey = none ∧
    t.cht.surveyTimer = none
  paternoster : t.pnc = { Pnc.reset with state := if t.fzu.fire = true then .held else .halted }
  zones : ∀ z : Fin 6, t.fzu.zones[z] = ⟨true, 0, if s.lines.zoneIn.getLsbD z.val = true then .alarmed else .quiet, false⟩
  fireUnit : t.fzu = { Fzu.reset with
    zones := t.fzu.zones
    fire := decide (s.lines.zoneIn ≠ 0)
    deadline := if s.lines.zoneIn = 0 then .cleared else .spent
    hold :=
      if s.lines.mainsOk = true then .stopped
      else if s.lines.battLow = true then .expired
      else .running (t.tmb.ownTime + 30000) }
  stations : ∀ i : Fin 16, t.shc.stations[i] = none
  bells : t.blx.present = 0x3FF ∧ t.blx.gap = 6 ∧ t.blx.window = 15
  scripts : ∀ k : Fin 16, t.anp.scripts[k] = ⟨[], false, 0⟩
  sound : t.SoundRestarted
  outputs : t.toStore.driven t.phs = t.toStore
  cpu : t.cpu = .reset
  slots : t.phs.slots = Vector.replicate 64 ⟨0, 0, [], none⟩
  calendar : t.tmb.cal = ⟨⟨2000, 1, 1⟩, 0, 0, 0, 0⟩ ∧ t.tmb.timeUnset = true ∧ t.tmb.trim = 0
  reference : t.tmb.ref = (if s.lines.crystal then .crystal else .internal) ∧ t.tmb.fault = !s.lines.crystal
  hours : t.tmb.weekly = Vector.replicate 7 .closed ∧ t.tmb.exceptions = []
  rxBuf : t.lnk.rxBuf = []
  held : t.lnk.held = []
  first : t.lnk.outbox.head? = some (.notice (.restarted k))
  unanswered : ∀ f ∈ t.lnk.outbox, ∃ n, f = .notice n

/-! ## Invariants -/

/-- The link stays within its capacities (R174, R176, R178, R179). -/
abbrev State.LinkBounded (s : State) : Prop :=
  s.lnk.rxBuf.length ≤ 4 ∧ s.lnk.held.length ≤ 4 ∧ s.lnk.outbox.length + s.lnk.held.length ≤ 32

/-- The output lines and the published clear-landings set are those of the blocks (R18, R33, R40, R69, R107, R138). -/
abbrev State.OutputsFollow (s : State) : Prop := s.toStore.driven s.phs = s.toStore

/-- The Phrase Store within its storage: canonical bytes, a total within 8192 blocks, loaded indices below their slot's
length (R127-R130). -/
abbrev State.PhrasesFit (s : State) : Prop :=
  Memory.wf s.phs.storage = true ∧ s.phs.total ≤ 8192 ∧
    ∀ k : Fin 64, ∀ i, i ∈ s.phs.slots[k].loaded → i < s.phs.slots[k].length

/-- A run exists exactly while the store mode is CLOSING (R2, R163). -/
abbrev State.RunIffClosing (s : State) : Prop := s.cpu.run.isSome = true ↔ s.msu.mode = .closing

/-- The fire condition follows the zones, and the clearance deadline is CLEARED exactly without it (R96, R100). -/
abbrev State.FireFollowsZones (s : State) : Prop :=
  s.fzu.fire = s.anyInFire ∧ (s.fzu.fire = false ↔ s.fzu.deadline = .cleared)

/-- Under fire the paternoster is not in service (R43, R50, R59). -/
abbrev State.FireStopsService (s : State) : Prop := s.fzu.fire = true → s.demand ≠ .service

/-- No fire shutter of a zone in fire is OPEN or RAISING (R84). -/
abbrev State.FireShuttersDown (s : State) : Prop :=
  ∀ (i : Fin 16) (sh : Shutter), s.shc.stations[i] = some sh → sh.kind = .fire → s.zoneInFire sh = true →
    sh.state ≠ .opened ∧ sh.state ≠ .raising

/-- A DEFERRED step stands only under fire, or while the chain finishes its fire duty (R171). -/
abbrev State.DeferredHeld (s : State) : Prop :=
  (s.cpu.stepsWhere fun _ o => o == .deferred) ≠ [] →
    s.fzu.fire = true ∨ s.pnc.state = .creeping ∨ s.pnc.state = .settling ∨ s.pnc.state = .held

/-- A zone's declared flag is set only in ALARMED, and a disabled zone is QUIET (R89, R94). -/
abbrev State.ZonesSound (s : State) : Prop :=
  ∀ z : Fin 6, (s.fzu.zones[z].declared = true → s.fzu.zones[z].state = .alarmed) ∧
    (s.fzu.zones[z].enabled = false → s.fzu.zones[z].state = .quiet)

end Machine

end Sys2Proof
end

