-- ==== Sys2Proof/Certificates/Slice0/Obligations.lean ====
section
/-! DEFINITION. The statements for the provers, in the order of the spec's chapters. -/
open Sys2Proof Sys2Proof.Machine

/-! ## The machine and the link (11) -/

/-- A step takes the command at the front of the queue; with none waiting the part idles (log 1). -/
def Obligations.StepRunsFrontCommand : Prop :=
  (∀ (c : Instr) (rest : List Instr) (s : State),
    step { s with pending := c :: rest } = exec c { s with pending := rest }) ∧
  ∀ s : State, s.pending = [] → step s = .next s

/-- Every command answers a next state and leaves the queue of waiting commands as it was. That no command stops the
part, and that commands wait in a queue, is the model's choice (log 1). -/
def Obligations.EveryCommandCompletes : Prop :=
  ∀ (c : Instr) (s : State), ∃ t, exec c s = .next t ∧ t.pending = s.pending

/-- R176, R177: an order that comes is kept while the intake condition fails, and discarded when four frames wait.
R177: an order whose code the part does not have is answered REFUSED with UNKNOWN. R178: a long operation that asks
for a held answer is refused with HELD_FULL while the list is full. That the arrival of an order and its taking are
one command is the model's choice (log 2). -/
def Obligations.OrdersAreTakenKeptOrTurnedAway : Prop :=
  (∀ (c : Instr) (h : OrderHead) (code : Byte) (body : List Byte) (s : State), c.order = some (h, code, body) →
     (s.lnk.rxBuf.length < 4 → 27 < s.lnk.outbox.length + s.lnk.held.length →
       exec c s = .next { s with lnk := { s.lnk with reception := none, rxBuf := s.lnk.rxBuf ++ [⟨h.held, h.tag, code, body⟩] } }) ∧
     (4 ≤ s.lnk.rxBuf.length → exec c s = .next { s with lnk := { s.lnk with reception := none } })) ∧
  (∀ (h : OrderHead) (code : Byte) (body : List Byte) (s : State), s.Ready → isOrderCode code = false →
     exec (.unknownOrder h code body) s = .next (s.answered h code .refused .unknown [])) ∧
  (∀ (c : Instr) (h : OrderHead) (code : Byte) (body : List Byte) (s : State), c.order = some (h, code, body) →
     isOrderCode code = true → isLongOperation code = true → h.held = true → s.Ready → 4 ≤ s.lnk.held.length →
     exec c s = .next (s.answered h code .refused .heldFull []))

/-- 5.9, R177: an order answered REFUSED changes nothing but the link. -/
def Obligations.RefusedOrderChangesNothing : Prop :=
  ∀ (c : Instr) (h : OrderHead) (code : Byte) (body : List Byte) (s t : State) (tag code' : Byte) (r : Reason)
    (data : List Byte), c.order = some (h, code, body) → s.Ready → exec c s = .next t →
    t.lnk.outbox[s.lnk.outbox.length]? = some (.answer tag code' .refused r data) →
    t = s.answered h code .refused r data

/-- R175, R182: the bytes of an order's frame, received on an idle line, are that order. R175: a frame in reception is
discarded by a missing stop bit, by a gap, by a length out of range, and by a check that fails; nothing else changes.
That the row of an order stands for its whole frame is the model's choice (log 2). -/
def Obligations.FramesOnTheLine : Prop :=
  (∀ (c : Instr) (h : OrderHead) (code : Byte) (body : List Byte) (s : State), c.order = some (h, code, body) →
     body.length ≤ 247 → s.lnk.reception = none →
     ∃ bytes, frameBytes (if h.held then 0x11 else 0x10) h.tag code body = some bytes ∧
       exec (.frameReceived bytes) s = exec c s) ∧
  (∀ s : State,
     exec .missingStopBit s = .next { s with lnk := { s.lnk with reception := none } } ∧
     exec .receiveGapTimeout s = .next { s with lnk := { s.lnk with reception := none } } ∧
     (∀ len : Byte, len.toNat < 3 ∨ 250 < len.toNat → (s.lnk.reception = none ∨ s.lnk.reception = some [0xA5]) →
       exec (.lengthOutOfRange len) s = .next { s with lnk := { s.lnk with reception := none } }) ∧
     (∀ (n : Byte) (rest : List Byte), s.lnk.reception = none → 3 ≤ n.toNat → n.toNat ≤ 250 →
       rest.length = n.toNat + 2 → rest.drop n.toNat ≠ Enc.word (crc16 (n :: rest.take n.toNat)).toNat →
       exec (.frameReceived (0xA5 :: n :: rest)) s = .next s))

/-- R179: the frame sent leaves the outbox; with no order waiting nothing else changes. R179: a safety notice enters
the outbox while it holds fewer than 28 frames, a routine notice while it holds fewer than 20; a notice turned away
sets the notices-lost flag. R178: the end of an operation turns each held answer that waits for it into a final
answer. That an order waiting for room is taken in the step that makes it is the model's choice (log 2), and so is the
order of several final answers of one operation (log 4). -/
def Obligations.OutboxAndItsNotices : Prop :=
  (∀ (f : OutFrame) (rest : List OutFrame) (s : State), s.lnk.outbox = f :: rest →
     (s.lnk.rxBuf = [] → exec .outboxFrameSent s = .next { s with lnk := { s.lnk with outbox := rest } }) ∧
     (∀ o, s.lnk.rxBuf = [o] → rest.length + s.lnk.held.length ≤ 27 →
       exec .outboxFrameSent s = .next (takeOrder o { s with lnk := { s.lnk with outbox := rest, rxBuf := [] } }))) ∧
  (∀ (n : Notice) (l : Lnk),
     l.offer n = if l.outbox.length < (if n.safety then 28 else 20) then { l with outbox := l.outbox ++ [.notice n] }
       else { l with lost := true }) ∧
  (∀ (op : HeldOp) (o : Outcome) (r : Reason) (data : List Byte) (l : Lnk),
     (l.take (.ended op o r data)).outbox =
       l.outbox ++ (l.held.filter fun x => x.op == op).map (fun x => .final x.tag x.code o r data) ∧
     (l.take (.ended op o r data)).held = l.held.filter fun x => x.op != op)

/-- R180: STATUS reports the store and clears the notices-lost flag. -/
def Obligations.StatusReportsAndClears : Prop :=
  ∀ (h : OrderHead) (body : List Byte) (s : State), s.Ready →
    (body = [] → exec (.status h body) s = .next
      { s with lnk := { (s.lnk.answered h 0x01 .done .none
        (Enc.byte s.msu.mode.code ++ Enc.power s.msu.source s.msu.batteryLow ++ Enc.flag s.fzu.fire ++
          Enc.set8 s.alarmed ++ Enc.set8 s.standing ++ Enc.byte s.pnc.state.code ++
          Enc.byte ((if s.tmb.timeUnset then 1 else 0) + (if s.tmb.fault then 2 else 0)) ++ Enc.set8 s.msu.wake ++
          Enc.flag s.cpu.run.isSome ++ Enc.flag s.lnk.lost ++ Enc.byte s.lnk.held.length ++
          Enc.byte s.lnk.outbox.length)) with lost := false } }) ∧
    (body ≠ [] → exec (.status h body) s = .next (s.answered h 0x01 .refused .form []))

/-! ## Invariants of every step -/

/-- R174, R176, R178, R179: every step keeps the receive buffer, the held-answer list and the outbox within their sizes.
-/
def Obligations.StepKeepsLinkBounds : Prop :=
  ∀ s t : State, s.LinkBounded → step s = .next t → t.LinkBounded

/-- R18, R33, R40, R69, R107, R138: every step leaves the output lines and the published clear-landings set those of the
blocks. -/
def Obligations.StepKeepsOutputsFollowing : Prop :=
  ∀ s t : State, s.OutputsFollow → step s = .next t → t.OutputsFollow

/-- R127-R130: every step keeps the Phrase Store within its storage. -/
def Obligations.StepKeepsPhrasesFit : Prop :=
  ∀ s t : State, s.PhrasesFit → step s = .next t → t.PhrasesFit

/-- Every step keeps a run in being exactly while the store mode is CLOSING. -/
def Obligations.StepKeepsRunIffClosing : Prop :=
  ∀ s t : State, s.RunIffClosing → step s = .next t → t.RunIffClosing

/-- R96, R100: every step keeps the fire condition that of the zones, with its deadline. R89-R94: every step keeps each
zone's declared flag within ALARMED and each disabled zone QUIET. R43, R50, R59: every step keeps the paternoster out of
service running under fire. -/
def Obligations.StepKeepsFireAndZones : Prop :=
  (∀ s t : State, s.FireFollowsZones → step s = .next t → t.FireFollowsZones) ∧
  (∀ s t : State, s.ZonesSound → step s = .next t → t.ZonesSound) ∧
  (∀ s t : State, s.FireStopsService → step s = .next t → t.FireStopsService)

/-- The reset state, on the line levels the model starts from (log 6), has every invariant, and power-on on those lines
gives it again. -/
def Obligations.ResetHasInvariants : Prop :=
  State.reset.LinkBounded ∧ State.reset.OutputsFollow ∧ State.reset.PhrasesFit ∧ State.reset.RunIffClosing ∧
    State.reset.FireFollowsZones ∧ State.reset.ZonesSound ∧ State.reset.FireStopsService ∧
    State.reset.FireShuttersDown ∧ State.reset.DeferredHeld ∧
    exec .powerOn State.reset = .next State.reset

/-! ## Store modes and supply (01) -/

/-- R2: COMMENCE makes its four checks in order, in SETUP alone, and takes the store to TRADING whatever the fire
condition, the power source and the drive demand; with nothing else to do, that is all it does. -/
def Obligations.CommenceChecksAndEntersTrading : Prop :=
  ∀ (h : OrderHead) (s : State), s.Ready →
    (s.msu.mode ≠ .setup → exec (.commence h []) s = .next (s.answered h 0x02 .refused .mode [])) ∧
    (s.msu.mode = .setup → s.cht.settings.loopLength = 0 →
      exec (.commence h []) s = .next (s.answered h 0x02 .refused .range [1])) ∧
    (s.msu.mode = .setup → s.cht.settings.loopLength ≠ 0 → s.cht.settings.cars = 0 →
      exec (.commence h []) s = .next (s.answered h 0x02 .refused .range [2])) ∧
    (s.msu.mode = .setup → s.cht.settings.loopLength ≠ 0 → s.cht.settings.cars ≠ 0 → ¬ s.LinksPresent →
      exec (.commence h []) s = .next (s.answered h 0x02 .refused .range [3])) ∧
    (s.msu.mode = .setup → s.cht.settings.loopLength ≠ 0 → s.cht.settings.cars ≠ 0 → s.LinksPresent →
      ¬ s.FireScriptHolds → exec (.commence h []) s = .next (s.answered h 0x02 .refused .range [4])) ∧
    (s.msu.mode = .setup → s.cht.settings.loopLength ≠ 0 → s.cht.settings.cars ≠ 0 → s.LinksPresent →
      s.FireScriptHolds → s.toStore.Calm →
      exec (.commence h []) s = .next (s.holding { s.toStore with msu := { s.msu with mode := .trading } }
        ((s.lnk.answered h 0x02 .done .none []).offer (.mode .setup .trading .commence false 0)))) ∧
    (s.msu.mode = .setup → s.cht.settings.loopLength ≠ 0 → s.cht.settings.cars ≠ 0 → s.LinksPresent →
      s.FireScriptHolds → s.RunIffClosing →
      ∃ t, exec (.commence h []) s = .next t ∧ t.msu.mode = .trading ∧ s.SameSettings t ∧ s.Answers t h 0x02 .done .none []) ∧
    (∀ body : List Byte, body ≠ [] → exec (.commence h body) s = .next (s.answered h 0x02 .refused .form []))

/-- R10, R13, R14: WAKE latches HOST_WAKE in CLOSING, wakes the store in NIGHT, and is refused otherwise; CLEAR-WAKE
empties the latch and answers what it held. -/
def Obligations.WakeLatchOrders : Prop :=
  ∀ (h : OrderHead) (s : State), s.Ready →
    (s.msu.mode = .setup ∨ s.msu.mode = .trading →
      exec (.wake h []) s = .next (s.answered h 0x04 .refused .mode [])) ∧
    (s.msu.mode = .closing → s.toStore.Calm →
      exec (.wake h []) s = .next (s.holding { s.toStore with msu := { s.msu with wake := s.msu.wake ||| 1 } }
        (s.lnk.answered h 0x04 .done .none []))) ∧
    (s.msu.mode = .night → s.toStore.Calm → (∀ c ∈ s.blx.calls, c.cls ≠ .watch) →
      exec (.wake h []) s = .next
        (s.holding { s.toStore with msu := { s.msu with mode := .trading, wake := s.msu.wake ||| 1 } }
          ((s.lnk.answered h 0x04 .done .none []).offer
            (.mode .night .trading .wake false (s.msu.wake ||| 1))))) ∧
    (s.msu.mode = .closing ∨ s.msu.mode = .night →
      ∃ t, exec (.wake h []) s = .next t ∧ t.msu.wake = s.msu.wake ||| 1 ∧
        (s.RunIffClosing → s.msu.mode = .night → t.msu.mode = .trading) ∧ s.SameSettings t ∧
        s.Answers t h 0x04 .done .none []) ∧
    (∀ body : List Byte, body ≠ [] → exec (.wake h body) s = .next (s.answered h 0x04 .refused .form [])) ∧
    exec (.clearWake h []) s = .next (s.holding { s.toStore with msu := { s.msu with wake := 0 } }
      (s.lnk.answered h 0x05 .done .none (Enc.set8 s.msu.wake)))

/-- R6, R7, R13: FORCE-NIGHT, its refusals, and the NIGHT it enters; a wake cause in the latch takes the store on to
TRADING. R7, R120, R123: the entry to NIGHT ends the ROUTINE and CLOSING calls as UNRUNG, the passage on to TRADING the
WATCH calls too, and every other call stays. R144, R149: it cuts the playing announcement and drops the waiting ones. Each
end has its notice, and a held answer that waits for it ends with its reason; the order of their frames is the model's
choice (log 4), and so is the empty skip record of a dropped announcement's notice (log 57). -/
def Obligations.ForceNightEntersNight : Prop :=
  ∀ (h : OrderHead) (s : State), s.Ready →
    (s.msu.mode = .setup ∨ s.msu.mode = .night →
      exec (.forceNight h []) s = .next (s.answered h 0x06 .refused .mode [])) ∧
    (s.msu.mode = .trading ∨ s.msu.mode = .closing → s.fzu.fire = true →
      exec (.forceNight h []) s = .next (s.answered h 0x06 .refused .fire [])) ∧
    (s.msu.mode = .trading ∨ s.msu.mode = .closing → s.fzu.fire = false →
      (s.demand ≠ .off ∨ s.pnc.state = .settling) →
      exec (.forceNight h []) s = .next (s.answered h 0x06 .refused .moving [])) ∧
    (s.RunIffClosing → s.msu.mode = .trading ∨ s.msu.mode = .closing → s.fzu.fire = false → s.demand = .off →
      s.pnc.state ≠ .settling →
      ∃ t, exec (.forceNight h []) s = .next t ∧ t.msu.mode = (if s.msu.wake = 0 then .night else .trading) ∧
        t.msu.wake = s.msu.wake ∧ t.pnc.state = (if s.pnc.state = .halted then .nightLock else s.pnc.state) ∧
        t.cpu.run = none ∧ t.anp.queue = [] ∧ t.anp.playing = none ∧ s.SameSettings t ∧
        s.Answers t h 0x06 .done .none [] ∧
        (t.blx.calls.map Call.number).Perm ((s.blx.calls.filter fun c => !s.endsAtNight c).map Call.number) ∧
        (∀ c ∈ t.blx.calls, s.endsAtNight c = false) ∧
        ∃ offers, t.lnk = (s.lnk.answered h 0x06 .done .none []).takeAll offers ∧
          (∀ c ∈ s.blx.calls, s.endsAtNight c = true →
            .notice (.callEnd c .unrung none .none) ∈ offers ∧ .ended (.call c.number) .ended .mode [] ∈ offers) ∧
          (∀ a, s.anp.playing = some a → .notice (.announceEnd a .cut .night s.anp.skip) ∈ offers ∧
            .ended (.announcement a.number) .ended .cut [] ∈ offers) ∧
          (∀ a ∈ s.anp.queue, .notice (.announceEnd a .dropped .night .none) ∈ offers ∧
            .ended (.announcement a.number) .ended .dropped [] ∈ offers))

/-- R22: RESTART with WARM, in every mode and without the key, makes a warm restart; with COLD, under the key, one of
the same effect on every block as a power-on start; neither is answered but by N-RESTARTED. R1, R9, R23: RESET_N makes a
warm restart and power-on a cold one. R65: what a restart leaves in Paternoster Control; R88: in Shutter Control; R104,
R105: in the Fire Zone Unit; R126: in the Bell Exchange; R151: in the Announcement Player. The timers in own time are the
model's choice (log 8), and so are the mark of a sweep's claimer (log 26), the supply mark of a grille (log 21) and the
NOT_PROVEN a grille re-derived as CLOSED keeps (log 55); when a warm restart makes the battery-low release is its reading
(log 16), and so are the state of a paternoster powered on with the reserve (log 17) and the start of a grille's fire raise
whatever its limits (log 20). -/
def Obligations.Restarts : Prop :=
  ∀ (h : OrderHead) (s : State),
    (s.Ready → ∃ t, exec (.restart h [2]) s = .next t ∧ s.WarmRestarted t ∧ t.lines = s.lines) ∧
    (s.Ready → s.msu.key = true →
      ∃ t u, exec (.restart h [1]) s = .next t ∧ s.ColdRestarted .cold t ∧ exec .powerOn s = .next u ∧
        t.toStore = u.toStore ∧ t.toEnv = u.toEnv) ∧
    (s.Ready → s.msu.key = false → exec (.restart h [1]) s = .next (s.answered h 0x03 .refused .locked [])) ∧
    (∀ body : List Byte, s.Ready → body ≠ [1] → body ≠ [2] →
      exec (.restart h body) s = .next (s.answered h 0x03 .refused .form [])) ∧
    (s.lines.resetN = false →
      ∃ t, exec .resetN s = .next t ∧ s.WarmRestarted t ∧ t.lines = { s.lines with resetN := true }) ∧
    (s.lines.resetN = true → exec .resetN s = .next s) ∧
    (∃ t, exec .powerOn s = .next t ∧ s.ColdRestarted .powerOn t)

/-- R17: PERMITS-SET loads the three permits in every mode and answers them; while the source is MAINS nothing else
changes. R15, R57, R58, R102: the power source follows MAINS_OK, with the reserve-hold timer and the paternoster. R16,
R102: the battery-low flag follows BATT_LOW, and spends a running reserve-hold timer on RESERVE. R87, R103: a reserve
hold of 0, and battery low on RESERVE, let every fire shutter held open or raising fall. R17, R19, R77, R123, R149: a
change to RESERVE without a permit, and the permit turned off on RESERVE, halt the grilles concerned, end the ROUTINE and
CLOSING calls, and end the announcements. That a line already at its level changes nothing is the model's choice (log
9), and so are the mark on a halted grille whose fire raise is to come (log 21) and a release whatever the closed limit
(log 58). -/
def Obligations.SupplyAndPermits : Prop :=
  (∀ (h : OrderHead) (b a g : Bool) (s : State), s.Ready →
     (∃ t, exec (.permitsSet h (Enc.flag b ++ Enc.flag a ++ Enc.flag g)) s = .next t ∧ t.msu.bellPermit = b ∧
       t.msu.announcePermit = a ∧ t.msu.grillePermit = g ∧ s.SameSettings t ∧
       s.Answers t h 0x07 .done .none (Enc.flag b ++ Enc.flag a ++ Enc.flag g)) ∧
     (s.msu.source = .mains → s.toStore.Calm →
       exec (.permitsSet h (Enc.flag b ++ Enc.flag a ++ Enc.flag g)) s = .next
         (s.holding { s.toStore with msu := { s.msu with bellPermit := b, announcePermit := a, grillePermit := g } }
           (s.lnk.answered h 0x07 .done .none (Enc.flag b ++ Enc.flag a ++ Enc.flag g))))) ∧
  (∀ (h : OrderHead) (b a g : Bool) (s : State), s.Ready → s.msu.source = .reserve →
     (s.msu.bellPermit = true → b = false →
       ∃ t, exec (.permitsSet h (Enc.flag b ++ Enc.flag a ++ Enc.flag g)) s = .next t ∧
         ∀ c ∈ t.blx.calls, c.cls = .urgent ∨ c.cls = .watch) ∧
     (s.msu.announcePermit = true → a = false →
       ∃ t, exec (.permitsSet h (Enc.flag b ++ Enc.flag a ++ Enc.flag g)) s = .next t ∧ t.anp.queue = [] ∧
         t.anp.playing = none) ∧
     (∀ (i : Fin 16) (sh : Shutter), s.msu.grillePermit = true → g = false → s.cpu.run = none →
       s.shc.stations[i] = some sh → sh.kind = .grille →
       sh.state = .descending ∨ sh.state = .raising ∧ (sh.upFire = false ∨ s.msu.batteryLow = true) →
       s.Leaves (.permitsSet h (Enc.flag b ++ Enc.flag a ++ Enc.flag g)) i (s.withdrawn sh))) ∧
  (∀ s : State, s.lines.mainsOk = true →
     (s.msu.batteryLow = true ∨ s.fzu.reserveHold = 0 → ∃ t, exec .mainsLoss s = .next t ∧ t.fzu.hold = .expired) ∧
     (∀ (i : Fin 16) (sh : Shutter), s.msu.batteryLow = true ∨ s.fzu.reserveHold = 0 → s.shc.stations[i] = some sh →
       sh.kind = .fire → sh.state = .opened ∨ sh.state = .releaseWait ∨ sh.state = .raising →
       ∃ t, exec .mainsLoss s = .next t ∧ t.shc.stations[i] = some
         (if t.landingClear sh = true then sh.released (s.lines.openLim.getLsbD i.val) s.tmb.ownTime
           else (sh.released (s.lines.openLim.getLsbD i.val) s.tmb.ownTime).addFaults FaultKind.forced)) ∧
     (s.msu.bellPermit = false →
       ∃ t, exec .mainsLoss s = .next t ∧ ∀ c ∈ t.blx.calls, c.cls = .urgent ∨ c.cls = .watch) ∧
     (s.msu.announcePermit = false → ∃ t, exec .mainsLoss s = .next t ∧ t.anp.queue = [] ∧ t.anp.playing = none) ∧
     (∀ (i : Fin 16) (sh : Shutter), s.cpu.run = none → s.shc.stations[i] = some sh → sh.kind = .grille →
       sh.state = .descending ∧ s.msu.grillePermit = false ∨
         sh.state = .raising ∧ (s.msu.batteryLow = true ∨ sh.upFire = false ∧ s.msu.grillePermit = false) →
       s.Leaves .mainsLoss i (s.withdrawn sh))) ∧
  (∀ (i : Fin 16) (sh : Shutter) (s : State), s.lines.battLow = false → s.msu.source = .reserve →
     s.shc.stations[i] = some sh →
     (sh.kind = .fire → sh.state = .opened ∨ sh.state = .releaseWait ∨ sh.state = .raising →
       s.Leaves .battLowSet i
         (if s.landingClear sh = true then sh.released (s.lines.openLim.getLsbD i.val) s.tmb.ownTime
           else (sh.released (s.lines.openLim.getLsbD i.val) s.tmb.ownTime).addFaults FaultKind.forced)) ∧
     (s.cpu.run = none → sh.kind = .grille → sh.state = .raising → s.Leaves .battLowSet i (s.withdrawn sh))) ∧
  (∀ s : State,
     (s.lines.mainsOk = true → s.msu.batteryLow = false → s.fzu.reserveHold ≠ 0 →
       ∃ t, exec .mainsLoss s = .next t ∧ t.lines = { s.lines with mainsOk := false } ∧ t.msu.source = .reserve ∧
         t.fzu.hold = .running (s.tmb.ownTime + s.fzu.reserveHold * 6000) ∧ t.fzu.zones = s.fzu.zones ∧
         t.fzu.fire = s.fzu.fire ∧ s.SameSettings t) ∧
     (s.lines.mainsOk = true → s.pnc.state ≠ .estop → s.pnc.state ≠ .lockedOut → s.pnc.state ≠ .nightLock →
       s.pnc.state ≠ .powerStop →
       ∃ t, exec .mainsLoss s = .next t ∧ t.pnc.state = .powerStop ∧ t.pnc.target = none ∧ t.out.demand = .off) ∧
     (s.lines.mainsOk = false →
       ∃ t, exec .mainsReturn s = .next t ∧ t.lines = { s.lines with mainsOk := true } ∧ t.msu.source = .mains ∧
         t.fzu.hold = .stopped ∧ t.fzu.zones = s.fzu.zones ∧ t.fzu.fire = s.fzu.fire ∧ s.SameSettings t) ∧
     (s.lines.mainsOk = false → s.cpu.run = none → s.fzu.fire = false → s.pnc.state = .powerStop → s.NoCauseInput →
       ∃ t, exec .mainsReturn s = .next t ∧
         t.pnc.state = (if s.msu.mode = .night then .nightLock else .halted)) ∧
     (s.lines.mainsOk = false → exec .mainsLoss s = .next s) ∧ (s.lines.mainsOk = true → exec .mainsReturn s = .next s)) ∧
  (∀ s : State,
     (s.lines.battLow = false →
       ∃ t, exec .battLowSet s = .next t ∧ t.lines = { s.lines with battLow := true } ∧ t.msu.batteryLow = true ∧
         t.msu.source = s.msu.source ∧ t.fzu.zones = s.fzu.zones ∧ t.fzu.fire = s.fzu.fire ∧ s.SameSettings t ∧
         (∀ x, s.fzu.hold = .running x → t.fzu.hold = if s.msu.source = .reserve then .expired else .running x)) ∧
     (s.lines.battLow = true → s.toStore.Calm →
       exec .battLowClear s = .next (s.holdingIn { s.toEnv with lines := { s.lines with battLow := false } }
         { s.toStore with msu := { s.msu with batteryLow := false } } (s.lnk.offer (.power s.msu.source false)))) ∧
     (s.lines.battLow = true → exec .battLowSet s = .next s) ∧ (s.lines.battLow = false → exec .battLowClear s = .next s))

/-- R12, R13, R161: STAFF_KEY claims its stamp in every mode, joins the wake latch in CLOSING, and wakes the store in
NIGHT; going inactive it does nothing but change its level. R21, R37: the key state follows COMMISSION; going inactive
it abandons a survey, with its notice and its held answer. R55, R60, R117: the levels that only stand. A cause input,
DRV_READY or an answer input going inactive, and DRV_READY becoming active without a fire, change their level and nothing
else. That STAFF_KEY or COMMISSION already at its level changes nothing is the model's choice (log 9), and so is the order
of the frames of an event (log 4). -/
def Obligations.KeysAndQuietLevels : Prop :=
  (∀ s : State,
     (s.lines.staffKey = false → s.msu.mode ≠ .night → s.toStore.Calm →
       exec .staffKey s = .next (s.holdingIn { s.toEnv with lines := { s.lines with staffKey := true } }
         { s.toStore with
           msu := { s.msu with wake := if s.msu.mode = .closing then s.msu.wake ||| 4 else s.msu.wake }
           stamps := put s.stamps 3 (Ev.stampAfter s.stamps[3] s.tmb.cal s.tmb.timeUnset 0).2 }
         (if (Ev.stampAfter s.stamps[3] s.tmb.cal s.tmb.timeUnset 0).1 = true then
           s.lnk.offer (.stamp 3 (Ev.stampAfter s.stamps[3] s.tmb.cal s.tmb.timeUnset 0).2) else s.lnk))) ∧
     (s.lines.staffKey = false → s.msu.mode = .night → s.RunIffClosing →
       ∃ t, exec .staffKey s = .next t ∧ t.lines = { s.lines with staffKey := true } ∧ t.msu.mode = .trading ∧
         t.msu.wake = s.msu.wake ||| 4 ∧ s.SameSettings t ∧
         t.stamps[3] = (Ev.stampAfter s.stamps[3] s.tmb.cal s.tmb.timeUnset 0).2 ∧
         (¬ (s.pnc.state = .settling ∧ s.cht.settled = true) →
           t.stamps = put s.stamps 3 (Ev.stampAfter s.stamps[3] s.tmb.cal s.tmb.timeUnset 0).2)) ∧
     (s.lines.staffKey = false → s.msu.mode = .night → s.toStore.Calm → (∀ c ∈ s.blx.calls, c.cls ≠ .watch) →
       exec .staffKey s = .next (s.holdingIn { s.toEnv with lines := { s.lines with staffKey := true } }
         { s.toStore with
           msu := { s.msu with mode := .trading, wake := s.msu.wake ||| 4 }
           stamps := put s.stamps 3 (Ev.stampAfter s.stamps[3] s.tmb.cal s.tmb.timeUnset 0).2 }
         ((if (Ev.stampAfter s.stamps[3] s.tmb.cal s.tmb.timeUnset 0).1 = true then
           s.lnk.offer (.stamp 3 (Ev.stampAfter s.stamps[3] s.tmb.cal s.tmb.timeUnset 0).2) else s.lnk).offer
           (.mode .night .trading .wake false (s.msu.wake ||| 4))))) ∧
     (s.lines.staffKey = true → exec .staffKey s = .next s) ∧
     exec .staffKeyInactive s = .next { s with lines := { s.lines with staffKey := false } } ∧
     exec .resetNInactive s = .next { s with lines := { s.lines with resetN := false } }) ∧
  (∀ (active : Bool) (s : State),
     (s.lines.commission = active → exec (.commissionKeyChange active) s = .next s) ∧
     (s.lines.commission ≠ active → s.toStore.Calm → s.cht.survey = none ∨ active = true →
       exec (.commissionKeyChange active) s = .next
         (s.holdingIn { s.toEnv with lines := { s.lines with commission := active } }
           { s.toStore with msu := { s.msu with key := active } } s.lnk)) ∧
     (s.lines.commission = true → active = false → s.cht.survey ≠ none →
       ∃ t, exec (.commissionKeyChange active) s = .next t ∧ t.cht.survey = none ∧ t.cht.surveyTimer = none ∧
         t.msu.key = false ∧ s.SameSettings t ∧
         ∃ rest, t.lnk = s.lnk.takeAll
           (.notice (.surveyEnd (.abandoned .key)) :: .ended .survey .ended .abandoned [] :: rest))) ∧
  (∀ (i : CauseInput) (n : Fin 10) (s : State),
     (exec (.causeInputInactive i) s = .next { s with lines :=
       match i with
       | .cord k => { s.lines with cords := strike s.lines.cords k.val }
       | .guard k => { s.lines with guards := strike s.lines.guards k.val }
       | .driveFault => { s.lines with drvFault := false } }) ∧
     exec .drvReadyInactive s = .next { s with lines := { s.lines with drvReady := false } } ∧
     exec (.answerInputInactive n) s = .next { s with lines := { s.lines with answer := strike s.lines.answer n.val } } ∧
     (s.lines.drvReady = false → s.toStore.Calm →
       exec .drvReadyActive s = .next (s.holdingIn { s.toEnv with lines := { s.lines with drvReady := true } } s.toStore s.lnk)))

/-! ## The chain and its landings (02) -/

/-- R25: CHAIN-SET loads the six settings; a new loop length or number of cars empties every sill list and the clear
list, a new loop length makes the position unknown, and a new level tolerance derives the clear list afresh. The
layout of the answer, where R184 tables none, is the model's reading (log 3). -/
def Obligations.ChainSettingsAreLoaded : Prop :=
  ∀ (h : OrderHead) (body : List Byte) (s : State), s.Ready → body.length = 7 →
    (s.msu.key = false → exec (.chainSet h body) s = .next (s.answered h 0x10 .refused .locked [])) ∧
    (s.msu.key = true → s.fzu.fire = true → exec (.chainSet h body) s = .next (s.answered h 0x10 .refused .fire [])) ∧
    (s.msu.key = true → s.fzu.fire = false → s.demand ≠ .off →
      exec (.chainSet h body) s = .next (s.answered h 0x10 .refused .moving [])) ∧
    (s.msu.key = true → s.demand = .off → s.toStore.Calm → (Body.settings body).valid = true →
      ∃ t, exec (.chainSet h body) s = .next t ∧ t.cht.settings = Body.settings body ∧
        t.cht.position = (if (Body.settings body).loopLength = s.cht.settings.loopLength then s.cht.position else none) ∧
        (∀ l : Fin 8, t.cht.landings[l] =
          if (Body.settings body).loopLength = s.cht.settings.loopLength ∧ (Body.settings body).cars = s.cht.settings.cars
          then s.cht.landings[l] else ⟨s.cht.landings[l].present, [], []⟩) ∧
        t.cht.clearList =
          (if (Body.settings body).loopLength ≠ s.cht.settings.loopLength ∨ (Body.settings body).cars ≠ s.cht.settings.cars
            then []
            else if (Body.settings body).levelTol ≠ s.cht.settings.levelTol then
              { s.cht with settings := Body.settings body }.derive
            else s.cht.clearList) ∧
        t.toEnv = s.toEnv ∧ t.msu = s.msu ∧ t.pnc = s.pnc ∧ t.shc = s.shc ∧ t.fzu = s.fzu ∧ t.blx = s.blx ∧
        t.anp = s.anp ∧ t.cpu = s.cpu ∧ t.stamps = s.stamps ∧
        t.lnk = s.lnk.answered h 0x10 .done .none (Enc.settings (Body.settings body)))

/-- R26, R30, R31: LANDING-SET replaces one landing record and empties the clear list; CLEAR-DERIVE derives the list
from the landing table. R31: a clear list holds at most 16 entries, each a position of a surveyed landing with the
landings level there, and any two more than twice the level tolerance apart; a candidate with a clear set stands within
twice the level tolerance of an entry that comes before it in the order, the larger clear set first, then the lower
position, or gives way to 16 entries that all do. R32: the best rest position is the first clear-list entry in that order.
That no landing is surveyed while the number
of cars is unset is the model's reading (log 38), as is the body of LANDING-SET, which R184 does not table (log 3). -/
def Obligations.LandingsAndClearList : Prop :=
  (∀ (h : OrderHead) (s : State), s.Ready → s.msu.key = true → s.demand = .off → s.toStore.Calm →
     (∀ (body : List Byte) (i : Fin 8), body.length = Body.landingLength body → Body.fin 8 body 0 = some i →
       Body.isFlag body 1 = true → 4 ≤ body.length →
       ((Body.landing body).present = true ∨ (Body.landing body).up = [] ∧ (Body.landing body).down = []) →
       sillListValid s.cht.settings (Body.landing body).up = true →
       sillListValid s.cht.settings (Body.landing body).down = true →
       exec (.landingSet h body) s = .next (s.holding
         { s.toStore with cht := { s.cht with landings := put s.cht.landings i (Body.landing body), clearList := [] } }
         (s.lnk.answered h 0x11 .done .none []))) ∧
     exec (.clearDerive h []) s = .next (s.holding { s.toStore with cht := { s.cht with clearList := s.cht.derive } }
       (s.lnk.answered h 0x13 .done .none (Enc.byte s.cht.derive.length)))) ∧
  (∀ c : Cht, c.derive.length ≤ 16 ∧
     (∀ e ∈ c.derive, e.set = c.clearSetAt e.pos ∧ e.set ≠ 0 ∧
       ∃ i : Fin 8, c.surveyed c.landings[i] = true ∧ (e.pos ∈ c.landings[i].up ∨ e.pos ∈ c.landings[i].down)) ∧
     (c.derive.Pairwise fun x y =>
       x.pos ≤ y.pos ∧ 2 * c.settings.levelTol < circDist c.settings.loopLength x.pos y.pos) ∧
     (∀ (i : Fin 8) (p : Nat), c.surveyed c.landings[i] = true → p ∈ c.landings[i].up ∨ p ∈ c.landings[i].down →
       c.clearSetAt p ≠ 0 →
       (∃ e ∈ c.derive, e.Before ⟨p, c.clearSetAt p⟩ ∧ circDist c.settings.loopLength p e.pos ≤ 2 * c.settings.levelTol) ∨
       (c.derive.length = 16 ∧ ∀ e ∈ c.derive, e.Before ⟨p, c.clearSetAt p⟩)) ∧
     (∀ (p : Nat) (i : Fin 8), (c.clearSetAt p).getLsbD i.val = true ↔ c.surveyed c.landings[i] = true ∧
       (∃ q ∈ c.landings[i].up, circDist c.settings.loopLength q p ≤ c.settings.levelTol) ∧
       ∃ q ∈ c.landings[i].down, circDist c.settings.loopLength q p ≤ c.settings.levelTol) ∧
     (∀ l : Landing, c.surveyed l = true ↔ l.present = true ∧ l.up.length = c.settings.cars ∧
       l.down.length = c.settings.cars ∧ 0 < c.settings.cars) ∧
     (c.clearList = [] → c.bestRest = none) ∧
     (c.clearList ≠ [] → ∃ b ∈ c.clearList, c.bestRest = some b ∧ ∀ e ∈ c.clearList, b.Before e))

/-- R34, R45: SURVEY begins a survey under its start conditions, and is refused by the first of them that fails. R29, R35:
the first index edge, found within the index tolerance or at an unknown position, makes the position 0 and begins the
recording. R29, R36, R37, R38: the index that closes a recording survey, found within the index tolerance, judges it; an
index farther off, in either phase, and the survey timer's end abandon it; each end releases the held answer and offers
N-SURVEY-END. The order of the frames of one event, N-SURVEY-END before N-PN-STATE, is the model's choice (log 4). -/
def Obligations.SurveysBeginAndEnd : Prop :=
  (∀ (h : OrderHead) (s : State), s.Ready → s.MayHold h →
     (∀ x, s.surveyRefusal = some x → exec (.survey h []) s = .next (s.answered h 0x15 .refused x [])) ∧
     (∀ body : List Byte, body ≠ [] → exec (.survey h body) s = .next (s.answered h 0x15 .refused .form []))) ∧
  (∀ (h : OrderHead) (s : State), s.Ready → s.MayHold h → s.toStore.Calm → s.surveyRefusal = none →
     exec (.survey h []) s = .next (s.holding
       { s.toStore with
         cht := { s.cht with survey := some .start, surveyTimer := some (s.tmb.ownTime + 400 * s.cht.settings.creepTimeout) }
         pnc := { s.pnc with state := .survey, purpose := .normal, target := none, missCount := 0 } }
       ((s.lnk.began h 0x15 .survey []).offer (.pnState .halted .survey .creep s.cht.position none .normal)))) ∧
  (∀ (x : Survey) (s : State), s.cht.survey = some x → s.toStore.Calm → s.pnc.state = .survey → s.cpu.run = none →
     (0 < s.cht.settings.loopLength →
       (∀ p, s.cht.position = some p → circDist s.cht.settings.loopLength p 0 ≤ s.cht.settings.indexTol) →
       x.recording = true → s.cht.settled = false → x.succeeds s.cht = true →
       ∃ t, exec .indexEdge s = .next t ∧ t.cht.survey = none ∧ t.cht.position = some 0 ∧
         t.cht.landings = x.commit s.cht.landings ∧
         t.cht.clearList = { s.cht with landings := x.commit s.cht.landings }.derive ∧
         t.pnc.state = .settling ∧
         t.lnk = s.lnk.takeAll [.notice (.surveyEnd (.done t.cht.clearList.length)), .ended .survey .done .none [],
           .notice (.pnState .survey .settling .off (some 0) none .normal)]) ∧
     (0 < s.cht.settings.loopLength →
       (∀ p, s.cht.position = some p → circDist s.cht.settings.loopLength p 0 ≤ s.cht.settings.indexTol) →
       x.recording = true → s.cht.settled = false → x.succeeds s.cht = false →
       ∃ t, exec .indexEdge s = .next t ∧ t.cht.survey = none ∧ t.cht.position = some 0 ∧
         t.cht.landings = s.cht.landings ∧ t.cht.clearList = s.cht.clearList ∧ t.pnc.state = .settling ∧
         t.lnk = s.lnk.takeAll [.notice (.surveyEnd (.failed (x.counts s.cht))), .ended .survey .ended .sillCount [],
           .notice (.pnState .survey .settling .off (some 0) none .normal)]) ∧
     (s.cht.surveyTimer ≠ none →
       ∃ t, exec .surveyTimerExpiry s = .next t ∧ t.cht.survey = none ∧ t.cht.surveyTimer = none ∧
         t.cht.landings = s.cht.landings ∧ t.cht.clearList = s.cht.clearList ∧ t.pnc.state = .estop ∧
         t.pnc.causes = { CauseSet.empty with creepTimeout := true } ∧ t.out.demand = .off ∧
         ∃ rest, t.lnk = s.lnk.takeAll
           (.notice (.surveyEnd (.abandoned .timeout)) :: .ended .survey .ended .abandoned [] :: rest))) ∧
  (∀ (x : Survey) (s : State), s.cht.survey = some x → s.pnc.state = .survey → 0 < s.cht.settings.loopLength →
     ((∀ p, s.cht.position = some p → circDist s.cht.settings.loopLength p 0 ≤ s.cht.settings.indexTol) →
       x.recording = false → s.toStore.Calm →
       exec .indexEdge s = .next (s.holding
         { s.toStore with cht := { s.cht with position := some 0, survey := some { x with recording := true } } } s.lnk)) ∧
     (∀ p, s.cht.position = some p → s.cht.settings.indexTol < circDist s.cht.settings.loopLength p 0 →
       ∃ t, exec .indexEdge s = .next t ∧ t.cht.survey = none ∧ t.cht.surveyTimer = none ∧ t.cht.position = some 0 ∧
         t.cht.landings = s.cht.landings ∧ t.cht.clearList = s.cht.clearList ∧ t.pnc.state = .estop ∧
         t.pnc.causes = { CauseSet.empty with chainSlip := true } ∧ t.out.demand = .off ∧
         ∃ rest, t.lnk = s.lnk.takeAll
           (.notice (.surveyEnd (.abandoned .estop)) :: .ended .survey .ended .abandoned [] :: rest)))

/-- R28: an encoder step moves the position one step round the loop, clears the settled flag and starts the settle
wait again; the settle wait's end sets the settled flag. R29, R53: an index edge makes the position 0; found farther
off than the index tolerance it is a chain slip, and the paternoster stops in ESTOP. That the settle wait's end does
nothing while the wait does not run is the model's choice (log 9). -/
def Obligations.EncoderAndIndex : Prop :=
  (∀ s : State,
     (∃ t, exec .encoderStep s = .next t ∧
       t.cht.position = s.cht.position.map (fun p => (p + 1) % s.cht.settings.loopLength) ∧ t.cht.settled = false ∧
       t.cht.settleWait = some (s.tmb.ownTime + 50) ∧ s.SameSettings t) ∧
     (∃ t, exec .settleWaitExpiry s = .next t ∧ t.cht.position = s.cht.position ∧
       t.cht.settled = (s.cht.settled || s.cht.settleWait.isSome) ∧ t.cht.settleWait = none ∧ s.SameSettings t)) ∧
  (∀ s : State,
     (0 < s.cht.settings.loopLength →
       ∃ t, exec .indexEdge s = .next t ∧ t.cht.position = some 0 ∧ t.cht.settings = s.cht.settings ∧ t.toEnv = s.toEnv) ∧
     (∀ p, 0 < s.cht.settings.loopLength → s.cht.position = some p →
       s.cht.settings.indexTol < circDist s.cht.settings.loopLength p 0 → s.pnc.state ≠ .lockedOut →
       s.pnc.state ≠ .powerStop → s.pnc.state ≠ .estop →
       ∃ t, exec .indexEdge s = .next t ∧ t.pnc.state = .estop ∧ t.pnc.causes = { CauseSet.empty with chainSlip := true } ∧
         t.out.demand = .off ∧ t.cht.position = some 0) ∧
     (0 < s.cht.settings.loopLength → s.toStore.Calm → s.cht.survey = none →
       (∀ p, s.cht.position = some p → circDist s.cht.settings.loopLength p 0 ≤ s.cht.settings.indexTol) →
       ¬ (s.pnc.state = .creeping ∧ s.pnc.target = none) →
       exec .indexEdge s = .next (s.holding { s.toStore with cht := { s.cht with position := some 0 } } s.lnk)))

/-- R26, R30, R53: outside a survey, while the chain moves, a sill edge of a surveyed landing farther than the level tolerance
from every entry of its side's list is a SILL_MISMATCH, and the paternoster stops in ESTOP; every other sill edge there
changes nothing. R35: in a recording survey the edge of a present landing adds one to its side's count and enters its
position into that side's list, in ascending order and once; before the first index, and of an absent landing, it changes
nothing. That a landing with the list of one side alone takes no part in the check is the model's choice (log 61). -/
def Obligations.SillEdgesCheckAndCount : Prop :=
  (∀ (l : Fin 8) (side : Side) (list : List Nat) (s : State), s.toStore.Calm →
     list = (match side with | .up => s.cht.landings[l].up | .down => s.cht.landings[l].down) →
     (∀ p, s.cht.position = some p → s.cht.survey = none → s.cht.settled = false → s.cht.landings[l].present = true →
       0 < s.cht.settings.cars → s.cht.landings[l].up.length = s.cht.settings.cars →
       s.cht.landings[l].down.length = s.cht.settings.cars →
       (∀ q ∈ list, s.cht.settings.levelTol < circDist s.cht.settings.loopLength q p) →
       s.pnc.state ≠ .estop → s.pnc.state ≠ .lockedOut → s.pnc.state ≠ .powerStop →
       ∃ t, exec (.sillEdge l side) s = .next t ∧ t.pnc.state = .estop ∧
         t.pnc.causes = { CauseSet.empty with sillMismatch := adjoin 0 l.val } ∧ t.out.demand = .off ∧
         t.cht.position = some p) ∧
     (s.cht.survey = none →
       s.cht.position = none ∨ s.cht.settled = true ∨ s.cht.landings[l].present = false ∨ s.cht.settings.cars = 0 ∨
         s.cht.landings[l].up.length ≠ s.cht.settings.cars ∨ s.cht.landings[l].down.length ≠ s.cht.settings.cars ∨
         (∃ p, s.cht.position = some p ∧
           ∃ q ∈ list, circDist s.cht.settings.loopLength q p ≤ s.cht.settings.levelTol) →
       exec (.sillEdge l side) s = .next (s.holding s.toStore s.lnk)) ∧
     (∀ p x, s.cht.position = some p → s.cht.survey = some x → x.recording = true → s.cht.landings[l].present = true →
       exec (.sillEdge l side) s = .next
         (s.holding { s.toStore with cht := { s.cht with survey := some (x.edge l side p) } } s.lnk)) ∧
     (∀ x, s.cht.survey = some x → x.recording = false ∨ s.cht.landings[l].present = false →
       exec (.sillEdge l side) s = .next (s.holding s.toStore s.lnk))) ∧
  (∀ (x y : Survey) (l : Fin 8) (side : Side) (p : Nat), y = x.edge l side p →
     y.recording = x.recording ∧ (y.sideCount l side).count = (x.sideCount l side).count + 1 ∧
     (∀ q, q ∈ (y.sideCount l side).list ↔ q = p ∨ q ∈ (x.sideCount l side).list) ∧
     ((x.sideCount l side).list.Pairwise (· < ·) → (y.sideCount l side).list.Pairwise (· < ·)) ∧
     (∀ (l' : Fin 8) (side' : Side), l' ≠ l ∨ side' ≠ side → y.sideCount l' side' = x.sideCount l' side') ∧
     x.sideCount l .up = x.up[l] ∧ x.sideCount l .down = x.down[l])

/-! ## Paternoster control (03) -/

/-- R43: PN-START under its conditions starts service running. R43: PN-START is refused by the first of its conditions
that fails. R44: the first encoder step of a start makes RUNNING of it, or SWEEPING of a sweep's, and clears the
start-fault count; the start window's end without one is a start fault, the third of which locks the paternoster out. That
the final answer precedes the notices of its event is the model's choice (log 4). -/
def Obligations.StartsOfThePaternoster : Prop :=
  (∀ (h : OrderHead) (s : State), s.Ready → s.MayHold h → s.toStore.Calm →
     s.pnc.state = .halted ∨ s.pnc.state = .nightLock → s.msu.mode = .trading ∨ s.msu.mode = .closing →
     s.msu.source = .mains → s.lines.drvReady = true → s.allLinkedOpen = true → s.NoCauseInput →
     exec (.pnStart h []) s = .next (s.holding
       { s.toStore with pnc := { s.pnc with state := .starting, purpose := .normal, startTimer := some (s.tmb.ownTime + 300) } }
       ((s.lnk.began h 0x16 .pnStart []).offer
         (.pnState s.pnc.state .starting .service s.cht.position s.pnc.target .normal)))) ∧
  (∀ (h : OrderHead) (s : State), s.Ready → s.MayHold h →
     (s.pnc.state ≠ .halted → s.pnc.state ≠ .nightLock →
       exec (.pnStart h []) s = .next (s.answered h 0x16 .refused .state [])) ∧
     (s.pnc.state = .halted ∨ s.pnc.state = .nightLock → s.msu.mode = .setup ∨ s.msu.mode = .night →
       exec (.pnStart h []) s = .next (s.answered h 0x16 .refused .mode [])) ∧
     (s.pnc.state = .halted ∨ s.pnc.state = .nightLock → s.msu.mode = .trading ∨ s.msu.mode = .closing →
       s.fzu.fire = true → exec (.pnStart h []) s = .next (s.answered h 0x16 .refused .fire [])) ∧
     (s.pnc.state = .halted ∨ s.pnc.state = .nightLock → s.msu.mode = .trading ∨ s.msu.mode = .closing →
       s.fzu.fire = false → s.msu.source = .reserve →
       exec (.pnStart h []) s = .next (s.answered h 0x16 .refused .power [])) ∧
     (s.pnc.state = .halted ∨ s.pnc.state = .nightLock → s.msu.mode = .trading ∨ s.msu.mode = .closing →
       s.fzu.fire = false → s.msu.source = .mains → s.lines.drvReady = false →
       exec (.pnStart h []) s = .next (s.answered h 0x16 .refused .notReady [])) ∧
     (s.pnc.state = .halted ∨ s.pnc.state = .nightLock → s.msu.mode = .trading ∨ s.msu.mode = .closing →
       s.fzu.fire = false → s.msu.source = .mains → s.lines.drvReady = true → s.allLinkedOpen = false →
       exec (.pnStart h []) s = .next (s.answered h 0x16 .refused .state [])) ∧
     (s.pnc.state = .halted ∨ s.pnc.state = .nightLock → s.msu.mode = .trading ∨ s.msu.mode = .closing →
       s.fzu.fire = false → s.msu.source = .mains → s.lines.drvReady = true → s.allLinkedOpen = true → ¬ s.NoCauseInput →
       exec (.pnStart h []) s = .next (s.answered h 0x16 .refused .state [])) ∧
     (∀ body : List Byte, body ≠ [] → exec (.pnStart h body) s = .next (s.answered h 0x16 .refused .form []))) ∧
  (∀ s : State, s.toStore.Calm → s.pnc.state = .starting →
     (s.pnc.purpose = .normal →
       ∃ t, exec .encoderStep s = .next t ∧ t.pnc = { s.pnc with state := .running, startTimer := none, startFaults := 0 } ∧
         t.out.demand = .service) ∧
     (s.pnc.purpose = .sweep →
       ∃ t, exec .encoderStep s = .next t ∧
         t.pnc = { s.pnc with state := .sweeping, startTimer := none, startFaults := 0, sweepCount := 0 } ∧
         t.out.demand = .service) ∧
     (s.pnc.startTimer ≠ none →
       ∃ t rest, exec .startWindowExpiry s = .next t ∧ t.pnc.startFaults = s.pnc.startFaults + 1 ∧ t.out.demand = .off ∧
         t.pnc.state =
           (if 3 ≤ s.pnc.startFaults + 1 then .lockedOut else if s.msu.mode = .night then .nightLock else .halted) ∧
         t.lnk = s.lnk.takeAll (.ended .pnStart .ended .notReady [] :: rest)))

/-- R46: PN-STOP as each line of its table takes it. R42, R46: from RUNNING and SWEEPING it creeps to the nearest clear-list
entry ahead of the stop lead, or settles; from STARTING and SURVEY it settles; a stop under way goes on, a sweep's as a
normal one; in HALTED and NIGHT_LOCK it is DONE; it is refused with FIRE in HELD and a fire stop, with STATE in ESTOP,
LOCKED_OUT and POWER_STOP. R48: a settle that finds the chain settled is at rest in the same event. R37, R51, R63: the
start, the sweep or the survey it stops ends with its held answer, and a claimed sweep with its step. R42: the nearest rule
chooses a clear-list entry with the least run-in distance, the fire rule one with the most landings of P, and of those one
with the least run-in distance. R47: at the stop lead point the demand goes OFF. R48, R49, R52: a normal stop that settles
with no target, within the level tolerance of its target, or farther off for the first time with the gate closed, is HALTED,
in NIGHT in NIGHT_LOCK; farther off for the first time with the gate open, it creeps to the nearest entry with the miss
count 1. R48, R49, R60: a fire stop that settles so is HELD, its held answer ended with FIRE, and creeps on where a landing
of P is left to clear; farther off for the first time with the gate open, it creeps to the entry of the fire rule with the
miss count 1, or is HELD for want of one. R49, R53: the second miss of any stop is ESTOP with STOP_MISSED. That a creep and
a rest clear the creep pending flag is the model's reading (log 18), and the mark of a sweep's claimer is its own (log 26);
that an unknown position is a miss (log 36) is its choice, that a miss with an empty clear list halts its reading (log 19),
and the order of the frames of an event its choice (log 4). -/
def Obligations.StopsOfThePaternoster : Prop :=
  (∀ (h : OrderHead) (s : State), s.Ready → s.MayHold h →
     (s.pnc.state = .halted ∨ s.pnc.state = .nightLock →
       exec (.pnStop h []) s = .next (s.answered h 0x17 .done .none [])) ∧
     (s.pnc.state = .held ∨ (s.pnc.state = .creeping ∨ s.pnc.state = .settling) ∧ s.pnc.purpose = .fire →
       exec (.pnStop h []) s = .next (s.answered h 0x17 .refused .fire [])) ∧
     (s.pnc.state = .estop ∨ s.pnc.state = .lockedOut ∨ s.pnc.state = .powerStop →
       exec (.pnStop h []) s = .next (s.answered h 0x17 .refused .state [])) ∧
     (∀ body : List Byte, body ≠ [] → exec (.pnStop h body) s = .next (s.answered h 0x17 .refused .form []))) ∧
  (∀ (h : OrderHead) (s : State), s.Ready → s.MayHold h → s.toStore.Calm →
     (∀ p g, s.pnc.state = .running → s.cht.position = some p → s.nearest p = some g →
       exec (.pnStop h []) s = .next (s.holding { s.toStore with pnc := s.creepingTo g }
         ((s.lnk.began h 0x17 .pnStop []).offer (.pnState .running .creeping .creep (some p) (some g) .normal)))) ∧
     (s.pnc.state = .running → s.cht.position = none ∨ s.cht.clearList = [] →
       ∃ t offers, exec (.pnStop h []) s = .next t ∧ t.pnc = s.stoppedBare ∧
         t.lnk = (s.lnk.began h 0x17 .pnStop []).takeAll offers ∧
         (s.cht.settled = true → .ended .pnStop .done .none [] ∈ offers) ∧
         t.out.demand = .off ∧ t.cht.position = s.cht.position ∧ s.SameSettings t) ∧
     (∀ p g, s.pnc.state = .sweeping → s.cht.position = some p → s.nearest p = some g →
       ∃ t offers, exec (.pnStop h []) s = .next t ∧ t.pnc = { s.creepingTo g with sweepClaimed := false } ∧
         t.lnk = (s.lnk.began h 0x17 .pnStop []).takeAll offers ∧ s.SweepEnded t offers .cancelled ∧
         t.out.demand = .creep ∧ s.SameSettings t) ∧
     (s.pnc.state = .sweeping → s.cht.position = none ∨ s.cht.clearList = [] →
       ∃ t offers, exec (.pnStop h []) s = .next t ∧ t.pnc = { s.stoppedBare with sweepClaimed := false } ∧
         t.lnk = (s.lnk.began h 0x17 .pnStop []).takeAll offers ∧ s.SweepEnded t offers .cancelled ∧
         (s.cht.settled = true → .ended .pnStop .done .none [] ∈ offers) ∧ t.out.demand = .off ∧ s.SameSettings t) ∧
     (s.pnc.state = .starting →
       ∃ t offers, exec (.pnStop h []) s = .next t ∧
         t.pnc = { s.stoppedBare with sweepClaimed := if s.pnc.purpose = .sweep then false else s.pnc.sweepClaimed } ∧
         t.lnk = (s.lnk.began h 0x17 .pnStop []).takeAll offers ∧ .ended .pnStart .ended .cancelled [] ∈ offers ∧
         (s.pnc.purpose = .sweep → s.SweepEnded t offers .cancelled) ∧
         (s.cht.settled = true → .ended .pnStop .done .none [] ∈ offers) ∧ t.out.demand = .off ∧ s.SameSettings t) ∧
     (s.pnc.state = .creeping ∨ s.pnc.state = .settling → s.pnc.purpose = .normal →
       exec (.pnStop h []) s = .next (s.holding s.toStore (s.lnk.began h 0x17 .pnStop []))) ∧
     (s.pnc.state = .creeping ∨ s.pnc.state = .settling → s.pnc.purpose = .sweep →
       ∃ t offers, exec (.pnStop h []) s = .next t ∧
         t.pnc = { s.pnc with purpose := .normal, sweepClaimed := false } ∧
         t.lnk = (s.lnk.began h 0x17 .pnStop []).takeAll offers ∧ s.SweepEnded t offers .cancelled ∧ s.SameSettings t) ∧
     (s.pnc.state = .survey → s.cht.survey ≠ none →
       ∃ t offers, exec (.pnStop h []) s = .next t ∧ t.pnc = s.stoppedBare ∧ t.cht.survey = none ∧
         t.cht.surveyTimer = none ∧ t.lnk = (s.lnk.began h 0x17 .pnStop []).takeAll offers ∧
         .notice (.surveyEnd (.abandoned .host)) ∈ offers ∧ .ended .survey .ended .abandoned [] ∈ offers ∧
         (s.cht.settled = true → .ended .pnStop .done .none [] ∈ offers) ∧ t.out.demand = .off ∧ s.SameSettings t)) ∧
  (∀ (st : Store) (p t : Nat), st.nearest p = some t →
     ∃ e ∈ st.cht.clearList, e.pos = t ∧ ∀ e' ∈ st.cht.clearList, st.runIn p e ≤ st.runIn p e') ∧
  (∀ (p t : Nat) (s : State), s.cht.position = some p → s.pnc.target = some t → s.toStore.Calm →
     (s.pnc.state = .creeping → s.pnc.purpose ≠ .fire →
       distAhead s.cht.settings.loopLength ((p + 1) % s.cht.settings.loopLength) t = s.cht.settings.stopLead →
       ∃ u, exec .encoderStep s = .next u ∧ u.pnc = { s.pnc with state := .settling, creepTimer := none } ∧
         u.out.demand = .off) ∧
     (s.pnc.state = .creeping →
       distAhead s.cht.settings.loopLength ((p + 1) % s.cht.settings.loopLength) t ≠ s.cht.settings.stopLead →
       ∃ u, exec .encoderStep s = .next u ∧ u.pnc = s.pnc)) ∧
  (∀ (rest : PnState) (s : State), s.toStore.Calm → s.pnc.state = .settling → s.pnc.purpose = .normal →
     s.cht.settleWait ≠ none → rest = (if s.msu.mode = .night then .nightLock else .halted) →
     (s.pnc.target = none ∨ s.AtTarget ∨ s.MissedForGood →
       exec .settleWaitExpiry s = .next (s.holding { s.toStore with cht := s.settledCht, pnc := s.restedIn rest }
         (s.lnk.takeAll [.ended .pnStop .done .none [],
           .notice (.pnState .settling rest .off s.cht.position none .normal)]))) ∧
     (∀ p g, s.OffTarget → s.pnc.missCount = 0 → s.gateOpen = true → s.cht.position = some p → s.nearest p = some g →
       exec .settleWaitExpiry s = .next (s.holding { s.toStore with cht := s.settledCht, pnc := s.reaimedAt g }
         (s.lnk.offer (.pnState .settling .creeping .creep (some p) (some g) .normal))))) ∧
  (∀ (p : Nat) (s : State), s.fzu.fire = true → s.pnc.state = .settling → s.pnc.purpose = .fire →
     s.cht.settleWait ≠ none → s.cht.position = some p →
     (s.pnc.target = none ∨ s.AtTarget ∨
         s.OffTarget ∧ s.pnc.missCount = 0 ∧ (s.gateOpen = false ∨ s.fireTarget p = none) →
       s.restTarget = none →
       ∃ u offers, exec .settleWaitExpiry s = .next u ∧ u.pnc.state = .held ∧ u.pnc.target = none ∧
         u.pnc.missCount = 0 ∧ u.pnc.purpose = .fire ∧ u.out.demand = .off ∧ u.lnk = s.lnk.takeAll offers ∧
         .ended .pnStop .ended .fire [] ∈ offers ∧ s.SameSettings u ∧
         (s.gateOpen = false →
           (u.pnc.creepPending = true ↔ u.pendingSet ≠ 0 ∧ u.pendingSet &&& u.clearNow = 0))) ∧
     (∀ g, s.pnc.target = none ∨ s.AtTarget → s.restTarget = some g →
       ∃ u offers, exec .settleWaitExpiry s = .next u ∧ u.pnc = { s.reaimedAt g with missCount := 0 } ∧
         u.out.demand = .creep ∧ u.lnk = s.lnk.takeAll offers ∧ .ended .pnStop .ended .fire [] ∈ offers ∧
         s.SameSettings u) ∧
     (∀ g, s.OffTarget → s.pnc.missCount = 0 → s.gateOpen = true → s.fireTarget p = some g →
       ∃ u, exec .settleWaitExpiry s = .next u ∧ u.pnc = s.reaimedAt g ∧ u.out.demand = .creep ∧ s.SameSettings u)) ∧
  (∀ s : State, s.pnc.state = .settling → s.cht.settleWait ≠ none → s.OffTarget → s.pnc.missCount ≠ 0 →
     ∃ u offers, exec .settleWaitExpiry s = .next u ∧ u.pnc.state = .estop ∧
       u.pnc.causes = { CauseSet.empty with stopMissed := true } ∧ u.pnc.target = none ∧ u.pnc.missCount = 0 ∧
       u.out.demand = .off ∧ u.stamps = put s.stamps 1 (Ev.stampAfter s.stamps[1] s.tmb.cal s.tmb.timeUnset 0).2 ∧
       u.lnk = s.lnk.takeAll offers ∧ .ended .pnStop .ended .fault [] ∈ offers ∧ s.SameSettings u) ∧
  (∀ (st : Store) (p : Nat), 0 < st.cht.settings.loopLength → st.cht.settings.loopLength ≤ 16384 →
     (st.fireTarget p = none ↔ ∀ e ∈ st.cht.clearList, e.set &&& st.pendingSet = 0) ∧
     (∀ t, st.fireTarget p = some t → ∃ e ∈ st.cht.clearList, e.pos = t ∧ e.set &&& st.pendingSet ≠ 0 ∧
       ∀ e' ∈ st.cht.clearList, card (e'.set &&& st.pendingSet) < card (e.set &&& st.pendingSet) ∨
         card (e'.set &&& st.pendingSet) = card (e.set &&& st.pendingSet) ∧ st.runIn p e ≤ st.runIn p e'))

/-- R50, R51: PN-SWEEP from RUNNING sweeps, and from HALTED starts for a sweep, with the start window; in NIGHT_LOCK it is
DONE while the store trades or closes; it is refused by the first of its checks that fails. R51: each step of a sweep is
counted, and the last of its loop creeps to the best rest position. R48, R51, R63: a sweep that settles within the level
tolerance of its target ends in NIGHT_LOCK, its held answer and its claimed step DONE. R42, R49: farther off for the first
time with the gate open, it creeps to the entry of the sweep re-target rule, the nearest of those that serve as many
landings as the best rest position, with the miss count 1; with the gate closed it is HALTED and the sweep fails with FAULT,
as it does with STOP_MISSED at its second miss (R53). The mark of a sweep's claimer is the model's own (log 26); that a rest
clears the creep pending flag (log 18) and that a sweep with nothing to rest at halts and fails (log 19) are its readings,
that an unknown position is a miss (log 36) and the order of the frames of an event (log 4) its choices. -/
def Obligations.SweepRunsItsLoop : Prop :=
  (∀ (h : OrderHead) (s : State), s.Ready → s.MayHold h →
    (∀ x, s.pnSweepRefusal = some x → exec (.pnSweep h []) s = .next (s.answered h 0x18 .refused x [])) ∧
    (s.pnc.state = .nightLock → s.msu.mode = .trading ∨ s.msu.mode = .closing →
      exec (.pnSweep h []) s = .next (s.answered h 0x18 .done .none [])) ∧
    (∀ body : List Byte, body ≠ [] → exec (.pnSweep h body) s = .next (s.answered h 0x18 .refused .form []))) ∧
  (∀ (h : OrderHead) (s : State), s.Ready → s.MayHold h → s.toStore.Calm → s.pnSweepRefusal = none →
    (s.pnc.state = .running →
      exec (.pnSweep h []) s = .next (s.holding
        { s.toStore with pnc := { s.pnc with state := .sweeping, purpose := .sweep, sweepCount := 0, sweepClaimed := false } }
        ((s.lnk.began h 0x18 .pnSweep []).offer
          (.pnState .running .sweeping .service s.cht.position s.pnc.target .sweep)))) ∧
    (s.pnc.state = .halted →
      exec (.pnSweep h []) s = .next (s.holding
        { s.toStore with pnc := { s.pnc with state := .starting, purpose := .sweep, sweepClaimed := false, startTimer := some (s.tmb.ownTime + 300) } }
        ((s.lnk.began h 0x18 .pnSweep []).offer
          (.pnState .halted .starting .service s.cht.position s.pnc.target .sweep))))) ∧
  ∀ s : State, s.toStore.Calm →
    (s.pnc.state = .sweeping → s.pnc.sweepCount + 1 ≠ s.cht.settings.loopLength →
      ∃ t, exec .encoderStep s = .next t ∧ t.pnc = { s.pnc with sweepCount := s.pnc.sweepCount + 1 } ∧
        t.out.demand = .service) ∧
    (∀ best, s.pnc.state = .sweeping → s.pnc.sweepCount + 1 = s.cht.settings.loopLength → s.cht.bestRest = some best →
      ∃ t, exec .encoderStep s = .next t ∧ t.pnc.state = .creeping ∧ t.pnc.target = some best.pos ∧
        t.pnc.missCount = 0 ∧ t.out.demand = .creep) ∧
    (s.pnc.state = .settling → s.pnc.purpose = .sweep → s.cht.settleWait ≠ none →
      (s.AtTarget →
        ∃ u offers, exec .settleWaitExpiry s = .next u ∧
          u.pnc = { s.restedIn .nightLock with sweepClaimed := false } ∧ u.lnk = s.lnk.takeAll offers ∧
          s.SweepLocked u offers ∧ u.out.demand = .off ∧ s.SameSettings u) ∧
      (s.pnc.target = none ∨ s.MissedForGood →
        ∃ u offers, exec .settleWaitExpiry s = .next u ∧
          u.pnc = { s.restedIn (if s.msu.mode = .night then .nightLock else .halted) with sweepClaimed := false } ∧
          u.lnk = s.lnk.takeAll offers ∧ s.SweepEnded u offers .fault ∧ u.out.demand = .off ∧ s.SameSettings u) ∧
      (∀ p g, s.OffTarget → s.pnc.missCount = 0 → s.gateOpen = true → s.cht.position = some p →
        s.sweepRetarget p = some g →
        exec .settleWaitExpiry s = .next (s.holding { s.toStore with cht := s.settledCht, pnc := s.reaimedAt g }
          (s.lnk.offer (.pnState .settling .creeping .creep (some p) (some g) .sweep)))) ∧
      (s.OffTarget → s.pnc.missCount ≠ 0 →
        ∃ u offers, exec .settleWaitExpiry s = .next u ∧ u.pnc.state = .estop ∧
          u.pnc.causes = { CauseSet.empty with stopMissed := true } ∧ u.lnk = s.lnk.takeAll offers ∧
          s.SweepEnded u offers .fault ∧ u.out.demand = .off ∧ s.SameSettings u)) ∧
    (∀ p, (s.sweepRetarget p = none ↔ s.cht.clearList = []) ∧
      ∀ g, s.sweepRetarget p = some g → ∃ b e, s.cht.bestRest = some b ∧ e ∈ s.cht.clearList ∧ e.pos = g ∧
        card e.set = card b.set ∧ ∀ e' ∈ s.cht.clearList, card e'.set = card b.set → s.runIn p e ≤ s.runIn p e')

/-- R52, R55, R56: PN-NIGHT-LOCK locks a halted chain, PN-RESET leaves ESTOP and PN-UNLOCK leaves LOCKED_OUT, each under
its conditions. That each clears the creep pending flag is the model's reading (log 18). -/
def Obligations.HandOrdersOfThePaternoster : Prop :=
  ∀ (h : OrderHead) (s : State), s.Ready → s.toStore.Calm →
    (s.pnc.state = .halted → exec (.pnNightLock h []) s = .next (s.holding
      { s.toStore with pnc := { s.pnc with state := .nightLock, target := none, missCount := 0, creepPending := false, startTimer := none, creepTimer := none } }
      ((s.lnk.answered h 0x19 .done .none []).offer (.pnState .halted .nightLock .off s.cht.position none s.pnc.purpose)))) ∧
    (s.pnc.state = .estop → s.NoCauseInput →
      exec (.pnReset h []) s = .next (s.holding
        { s.toStore with pnc := { s.pnc with state := if s.msu.mode = .night then .nightLock else .halted, target := none, missCount := 0, creepPending := false, startTimer := none, creepTimer := none, causes := .empty } }
        ((s.lnk.answered h 0x1B .done .none []).offer (.pnState .estop
          (if s.msu.mode = .night then .nightLock else .halted) .off s.cht.position none s.pnc.purpose)))) ∧
    (s.pnc.state = .estop → ¬ s.NoCauseInput →
      exec (.pnReset h []) s = .next (s.answered h 0x1B .refused .state [])) ∧
    (s.msu.key = true → s.pnc.state = .lockedOut → s.NoCauseInput →
      exec (.pnUnlock h []) s = .next (s.holding
        { s.toStore with pnc := { s.pnc with state := if s.msu.mode = .night then .nightLock else .halted, target := none, missCount := 0, creepPending := false, startTimer := none, creepTimer := none, startFaults := 0 } }
        ((s.lnk.answered h 0x1C .done .none []).offer (.pnState .lockedOut
          (if s.msu.mode = .night then .nightLock else .halted) .off s.cht.position none s.pnc.purpose)))) ∧
    (s.msu.key = false → exec (.pnUnlock h []) s = .next (s.answered h 0x1C .refused .locked []))

/-- R54: PN-HALT takes ESTOP with cause HOST from every state it can be entered from, adds HOST to the set in ESTOP, and
is refused with STATE in LOCKED_OUT and POWER_STOP; it has no body and needs no key. -/
def Obligations.HaltStopsTheChain : Prop :=
  ∀ (h : OrderHead) (s : State), s.Ready →
    (s.pnc.state ≠ .estop → s.pnc.state ≠ .lockedOut → s.pnc.state ≠ .powerStop →
      ∃ t, exec (.pnHalt h []) s = .next t ∧ t.pnc.state = .estop ∧ t.pnc.causes = { CauseSet.empty with host := true } ∧
        t.pnc.target = none ∧ t.out.demand = .off ∧ t.cht.position = s.cht.position ∧ s.SameSettings t ∧
        s.Answers t h 0x1A .done .none []) ∧
    (s.pnc.state = .estop →
      ∃ t, exec (.pnHalt h []) s = .next t ∧ t.pnc = { s.pnc with causes := { s.pnc.causes with host := true } } ∧
        t.out.demand = .off ∧ t.cht.position = s.cht.position ∧ s.SameSettings t ∧ s.Answers t h 0x1A .done .none []) ∧
    (s.pnc.state = .lockedOut ∨ s.pnc.state = .powerStop →
      exec (.pnHalt h []) s = .next (s.answered h 0x1A .refused .state [])) ∧
    (∀ body : List Byte, body ≠ [] → exec (.pnHalt h body) s = .next (s.answered h 0x1A .refused .form []))

/-- R53: a cord or guard of a present landing, and DRIVE_FAULT, stop a moving paternoster in ESTOP with that cause
alone; the cord or guard of an absent landing does not. R53: a cause input in ESTOP joins the cause set, and changes
nothing in LOCKED_OUT and POWER_STOP. R47, R53: the creep timer's end stops the chain in ESTOP with cause CREEP_TIMEOUT.
R60: DRV_READY becoming active lets a HELD paternoster under fire creep to the entry that clears the most waiting
landings. -/
def Obligations.CausesStopTheChain : Prop :=
  (∀ (l : Fin 8) (s : State), s.pnc.state ≠ .estop → s.pnc.state ≠ .lockedOut →
     s.pnc.state ≠ .powerStop →
     (s.lines.cords.getLsbD l.val = false → s.cht.landings[l].present = true →
       ∃ t, exec (.cordActive l) s = .next t ∧ t.lines = { s.lines with cords := adjoin s.lines.cords l.val } ∧
         t.pnc.state = .estop ∧ t.pnc.causes = { CauseSet.empty with cord := adjoin 0 l.val } ∧ t.out.demand = .off ∧
         s.SameSettings t) ∧
     (s.lines.guards.getLsbD l.val = false → s.cht.landings[l].present = true →
       ∃ t, exec (.guardActive l) s = .next t ∧ t.lines = { s.lines with guards := adjoin s.lines.guards l.val } ∧
         t.pnc.state = .estop ∧ t.pnc.causes = { CauseSet.empty with guard := adjoin 0 l.val } ∧ t.out.demand = .off ∧
         s.SameSettings t) ∧
     (s.lines.drvFault = false →
       ∃ t, exec .driveFaultActive s = .next t ∧ t.lines = { s.lines with drvFault := true } ∧ t.pnc.state = .estop ∧
         t.pnc.causes = { CauseSet.empty with driveFault := true } ∧ t.out.demand = .off ∧ s.SameSettings t) ∧
     (s.lines.cords.getLsbD l.val = false → s.cht.landings[l].present = false → s.toStore.Calm →
       exec (.cordActive l) s = .next
         (s.holdingIn { s.toEnv with lines := { s.lines with cords := adjoin s.lines.cords l.val } } s.toStore s.lnk)) ∧
     (s.lines.guards.getLsbD l.val = false → s.cht.landings[l].present = false → s.toStore.Calm →
       exec (.guardActive l) s = .next
         (s.holdingIn { s.toEnv with lines := { s.lines with guards := adjoin s.lines.guards l.val } } s.toStore s.lnk))) ∧
  (∀ (s : State), s.toStore.Calm → s.lines.drvFault = false →
     (s.pnc.state = .estop → s.pnc.causes.driveFault = false →
       exec .driveFaultActive s = .next
         (s.holdingIn { s.toEnv with lines := { s.lines with drvFault := true } }
           { s.toStore with pnc := { s.pnc with causes := { s.pnc.causes with driveFault := true } } }
           (s.lnk.offer (.pnStopped .estop .estop (some .driveFault) { s.pnc.causes with driveFault := true } s.pnc.startFaults)))) ∧
     (s.pnc.state = .lockedOut ∨ s.pnc.state = .powerStop →
       exec .driveFaultActive s = .next
         (s.holdingIn { s.toEnv with lines := { s.lines with drvFault := true } } s.toStore s.lnk))) ∧
  (∀ (l : Fin 8) (s : State), s.toStore.Calm → s.cht.landings[l].present = true → s.lines.cords.getLsbD l.val = false →
     (s.pnc.state = .estop → s.pnc.causes.cord.getLsbD l.val = false →
       exec (.cordActive l) s = .next
         (s.holdingIn { s.toEnv with lines := { s.lines with cords := adjoin s.lines.cords l.val } }
           { s.toStore with pnc := { s.pnc with causes := { s.pnc.causes with cord := adjoin s.pnc.causes.cord l.val } } }
           (s.lnk.offer (.pnStopped .estop .estop (some (.cord l))
             { s.pnc.causes with cord := adjoin s.pnc.causes.cord l.val } s.pnc.startFaults)))) ∧
     (s.pnc.state = .lockedOut ∨ s.pnc.state = .powerStop ∨
         s.pnc.state = .estop ∧ s.pnc.causes.cord.getLsbD l.val = true →
       exec (.cordActive l) s = .next
         (s.holdingIn { s.toEnv with lines := { s.lines with cords := adjoin s.lines.cords l.val } } s.toStore s.lnk))) ∧
  (∀ (l : Fin 8) (s : State), s.toStore.Calm → s.cht.landings[l].present = true → s.lines.guards.getLsbD l.val = false →
     (s.pnc.state = .estop → s.pnc.causes.guard.getLsbD l.val = false →
       exec (.guardActive l) s = .next
         (s.holdingIn { s.toEnv with lines := { s.lines with guards := adjoin s.lines.guards l.val } }
           { s.toStore with pnc := { s.pnc with causes := { s.pnc.causes with guard := adjoin s.pnc.causes.guard l.val } } }
           (s.lnk.offer (.pnStopped .estop .estop (some (.guard l))
             { s.pnc.causes with guard := adjoin s.pnc.causes.guard l.val } s.pnc.startFaults)))) ∧
     (s.pnc.state = .lockedOut ∨ s.pnc.state = .powerStop ∨
         s.pnc.state = .estop ∧ s.pnc.causes.guard.getLsbD l.val = true →
       exec (.guardActive l) s = .next
         (s.holdingIn { s.toEnv with lines := { s.lines with guards := adjoin s.lines.guards l.val } } s.toStore s.lnk))) ∧
  (∀ s : State, s.pnc.state = .creeping → s.pnc.creepTimer ≠ none →
     ∃ t, exec .creepTimerExpiry s = .next t ∧ t.pnc.state = .estop ∧
       t.pnc.causes = { CauseSet.empty with creepTimeout := true } ∧ t.pnc.creepTimer = none ∧ t.out.demand = .off ∧
       s.SameSettings t) ∧
  (∀ (p t : Nat) (s : State), s.lines.drvReady = false → s.fzu.fire = true → s.pnc.state = .held →
     s.msu.source = .mains → s.gateOpen = true → s.cht.position = some p → s.fireTarget p = some t →
     s.pendingSet &&& s.clearNow = 0 → s.cpu.run = none →
     ∃ u, exec .drvReadyActive s = .next u ∧ u.lines = { s.lines with drvReady := true } ∧ u.pnc.state = .creeping ∧
       u.pnc.purpose = .fire ∧ u.pnc.target = some t ∧ u.out.demand = .creep ∧ s.SameSettings u)

/-! ## Shutters (04) -/

/-- R67: the state a SHUTTER-SET gives its record follows from the limits, and its fault set from them and NOT_PROVEN.
R67, R68: SHUTTER-SET puts the record at its station, or makes the station absent, and answers it. R69, R71, R74-R76:
what a release, a drive and a raise make of a shutter, and its outputs. The layout of the answer, where R184 tables
none, is the model's reading (log 3), and so is that a removal offers no N-SHUTTER-STATE (log 32); what a removal answers
is its choice (log 41). -/
def Obligations.ShutterRecords : Prop :=
  (∀ (kind : ShutterKind) (zone : Option (Fin 6)) (landing : Option (Fin 8)) (night openOnFire : Bool)
     (descent raise now : Nat) (openLim closedLim : Bool) (sh : Shutter),
     sh = Shutter.define kind zone landing night openOnFire descent raise openLim closedLim now →
     (openLim = true → closedLim = false → sh.state = .opened) ∧ (openLim = false → closedLim = true → sh.state = .closed) ∧
     (openLim = closedLim → kind = .fire → sh.state = .descending ∧ sh.descent = .running now 0) ∧
     (openLim = closedLim → kind = .grille → sh.state = .haltedPart) ∧
     sh.faults = (if openLim = true ∧ closedLim = true then FaultKind.notProven ||| FaultKind.limitConflict
       else FaultKind.notProven) ∧
     sh.proof = none ∧ sh.zone = zone ∧ sh.landing = landing ∧ sh.kind = kind) ∧
  (∀ (h : OrderHead) (body : List Byte) (i : Fin 16) (new : Shutter) (s : State), s.Ready → s.toStore.Calm →
     s.msu.key = true → s.demand = .off → body.length = 9 → Body.fin 16 body 0 = some i →
     (∀ sh, s.shc.stations[i] = some sh → sh.state ≠ .descending ∧ sh.state ≠ .raising ∧ sh.state ≠ .obstructed) →
     Body.shutter body (s.lines.openLim.getLsbD i.val) (s.lines.closedLim.getLsbD i.val) s.tmb.ownTime = some new →
     (Body.flag body 1 = true →
       ∃ l, exec (.shutterSet h body) s = .next (s.holding (s.toStore.withStation i (some new)) l) ∧
         l.outbox[s.lnk.outbox.length]? = some (.answer h.tag 0x20 .done .none
           (Enc.record (some new) ++ Enc.shutterState (some new)))) ∧
     (Body.flag body 1 = false →
       exec (.shutterSet h body) s = .next (s.holding (s.toStore.withStation i none)
         (s.lnk.answered h 0x20 .done .none (Enc.record none ++ Enc.shutterState none))))) ∧
  (∀ (sh : Shutter) (openLim : Bool) (now : Nat),
     ((sh.released openLim now).state = .descending ∧ (sh.released openLim now).descent = .running now 0 ∧
       (sh.released openLim now).obstr = 0 ∧
       (sh.released openLim now).magnetCheck = (if openLim then some (now + 200) else none) ∧
       (sh.kind = .fire → (sh.released openLim now).outA = false ∧ (sh.released openLim now).outB = false)) ∧
     ((sh.fireRaised false now).state = .raising ∧
       (sh.fireRaised false now).raiseTimer = some (now + sh.raiseTimeout * 100) ∧
       (sh.kind = .fire → (sh.fireRaised false now).outA = true ∧ (sh.fireRaised false now).outB = true)) ∧
     ((sh.drivenDown now).state = .descending ∧ (sh.drivenDown now).descent = .running now 0 ∧
       (sh.kind = .grille → (sh.drivenDown now).outA = true ∧ (sh.drivenDown now).outB = false)) ∧
     ((sh.drivenUp false now).state = .raising ∧ (sh.drivenUp false now).raiseTimer = some (now + sh.raiseTimeout * 100) ∧
       (sh.kind = .grille → (sh.drivenUp false now).outA = false ∧ (sh.drivenUp false now).outB = true)))

/-- R71, R81: SHUTTER-CLOSE releases a fire shutter at OPEN and drives a grille down; a closed shutter is answered DONE.
R72, R81, R83: it makes an obstructed fire shutter retry with its count at 0 and OBSTRUCTED_REPEAT removed, and joins the
descent of one that falls. R81: it is refused with FIRE in RELEASE_WAIT and to a grille under fire, and with STATE to a
fire shutter that is raised, still obstructed, or falls with OBSTRUCTED_REPEAT, and to a moving grille. R74, R76, R82, R83:
SHUTTER-RAISE drives a shutter up, a fire shutter also from an obstruction and from a slow or stuck fall, where it ends a
held SHUTTER-CLOSE with CANCELLED; a fire shutter at its open limit is OPEN at once, and an open shutter is answered DONE.
R82: a raise is refused with FIRE to a fire shutter of a zone in fire, and made under fire for an open-on-fire grille of
one. R76, R80: SHUTTER-STOP halts a moving grille and turns away a fire shutter; SHUTTER-CLEAR drops the kinds it names but
for those that stay. That a grille is driven towards a limit already active is the model's reading (log 20), and so is the
one notice of a raise that ends at once (log 23); the order of the frames of an event is its choice (log 4), and so is that
a descent timer that has run out stays stopped in a retry (log 52) and that a fire shutter falls, by release or retry,
whatever its closed limit, and every shutter whatever its edge (log 58). -/
def Obligations.ShutterOrders : Prop :=
  (∀ (h : OrderHead) (body : List Byte) (i : Fin 16) (sh : Shutter) (s : State), s.Ready → s.MayHold h → s.toStore.Calm →
     body.length = 1 → Body.fin 16 body 0 = some i → s.shc.stations[i] = some sh →
     (sh.state = .closed → exec (.shutterClose h body) s = .next (s.answered h 0x22 .done .none [])) ∧
     (sh.kind = .fire → sh.state = .opened → (sh.landing ≠ none → s.demand = .off) →
       (∀ l, sh.landing = some l → s.clearNow.getLsbD l.val = true) →
       exec (.shutterClose h body) s = .next (s.holding
         (s.toStore.withStation i (some (sh.released (s.lines.openLim.getLsbD i.val) s.tmb.ownTime)))
         ((s.lnk.began h 0x22 (.shutterClose i) []).offer (.shutterState i (some .opened) .descending .order)))) ∧
     (sh.kind = .grille → sh.state = .opened ∨ sh.state = .haltedPart → (sh.landing ≠ none → s.demand = .off) →
       (sh.state = .opened → ∀ l, sh.landing = some l → s.clearNow.getLsbD l.val = true) →
       (s.lines.openLim.getLsbD i.val && s.lines.closedLim.getLsbD i.val) = false →
       (s.msu.source = .mains ∨ s.msu.grillePermit = true) →
       exec (.shutterClose h body) s = .next (s.holding (s.toStore.withStation i (some (sh.drivenDown s.tmb.ownTime)))
         ((s.lnk.began h 0x22 (.shutterClose i) []).offer (.shutterState i (some sh.state) .descending .order)))) ∧
     (sh.kind = .fire → sh.state = .obstructed → s.lines.edge.getLsbD i.val = false →
       (sh.landing ≠ none → s.demand = .off) →
       exec (.shutterClose h body) s = .next (s.holding
         (s.toStore.withStation i
           (some (({ sh with obstr := 0 }.dropFaults FaultKind.obstructedRepeat).retried s.tmb.ownTime)))
         ((s.lnk.began h 0x22 (.shutterClose i) []).offer (.shutterState i (some .obstructed) .descending .order)))) ∧
     (sh.kind = .fire → sh.state = .descending → sh.has FaultKind.obstructedRepeat = false →
       (sh.landing ≠ none → s.demand = .off) →
       exec (.shutterClose h body) s = .next (s.holding s.toStore (s.lnk.began h 0x22 (.shutterClose i) [])))) ∧
  (∀ (h : OrderHead) (body : List Byte) (i : Fin 16) (sh : Shutter) (s : State), s.Ready → s.MayHold h → body.length = 1 →
     Body.fin 16 body 0 = some i → s.shc.stations[i] = some sh →
     (sh.kind = .fire → sh.state = .releaseWait →
       exec (.shutterClose h body) s = .next (s.answered h 0x22 .refused .fire [])) ∧
     (sh.kind = .grille → sh.state ≠ .closed → s.fzu.fire = true →
       exec (.shutterClose h body) s = .next (s.answered h 0x22 .refused .fire [])) ∧
     (sh.kind = .fire → sh.state = .raising ∨ sh.state = .obstructed ∧ s.lines.edge.getLsbD i.val = true ∨
         sh.state = .descending ∧ sh.has FaultKind.obstructedRepeat = true →
       exec (.shutterClose h body) s = .next (s.answered h 0x22 .refused .state [])) ∧
     (sh.kind = .grille → sh.state = .raising ∨ sh.state = .descending → s.fzu.fire = false →
       exec (.shutterClose h body) s = .next (s.answered h 0x22 .refused .state []))) ∧
  (∀ (h : OrderHead) (body : List Byte) (i : Fin 16) (sh : Shutter) (s : State), s.Ready → s.MayHold h → s.toStore.Calm →
     body.length = 1 → Body.fin 16 body 0 = some i → s.shc.stations[i] = some sh →
     (sh.state = .opened → exec (.shutterRaise h body) s = .next (s.answered h 0x23 .done .none [])) ∧
     (sh.kind = .fire → s.zoneInFire sh = false →
       sh.state = .closed ∨ sh.state = .obstructed ∧ s.lines.edge.getLsbD i.val = false ∨
         sh.state = .descending ∧ (sh.has FaultKind.descentSlow || sh.has FaultKind.magnetStuck) = true →
       s.lines.openLim.getLsbD i.val = false → (sh.landing ≠ none → s.demand = .off) → s.msu.source = .mains →
       exec (.shutterRaise h body) s = .next (s.holding (s.toStore.withStation i (some (sh.fireRaised false s.tmb.ownTime)))
         ((s.lnk.began h 0x23 (.shutterRaise i) []).takeAll
           [.notice (.shutterState i (some sh.state) .raising .order),
             .ended (.shutterClose i) .ended .cancelled (Enc.byte ShutterState.raising.code)]))) ∧
     (sh.kind = .fire → s.zoneInFire sh = false →
       sh.state = .closed ∨ sh.state = .obstructed ∧ s.lines.edge.getLsbD i.val = false ∨
         sh.state = .descending ∧ (sh.has FaultKind.descentSlow || sh.has FaultKind.magnetStuck) = true →
       s.lines.openLim.getLsbD i.val = true → s.lines.closedLim.getLsbD i.val = false →
       (sh.landing ≠ none → s.demand = .off) → s.msu.source = .mains →
       exec (.shutterRaise h body) s = .next (s.holding (s.toStore.withStation i (some (sh.fireRaised true s.tmb.ownTime)))
         ((s.lnk.began h 0x23 (.shutterRaise i) []).takeAll
           [.notice (.shutterState i (some sh.state) .opened .order),
             .ended (.shutterClose i) .ended .cancelled (Enc.byte ShutterState.opened.code),
             .ended (.shutterRaise i) .done .none (Enc.byte ShutterState.opened.code)]))) ∧
     (sh.kind = .grille → sh.state = .closed ∨ sh.state = .haltedPart →
       (s.lines.openLim.getLsbD i.val && s.lines.closedLim.getLsbD i.val) = false →
       (sh.landing ≠ none → s.demand = .off) → s.msu.source = .mains →
       exec (.shutterRaise h body) s = .next (s.holding (s.toStore.withStation i (some (sh.drivenUp false s.tmb.ownTime)))
         ((s.lnk.began h 0x23 (.shutterRaise i) []).offer (.shutterState i (some sh.state) .raising .order))))) ∧
  (∀ (h : OrderHead) (body : List Byte) (i : Fin 16) (sh : Shutter) (s : State), s.Ready → s.MayHold h → body.length = 1 →
     Body.fin 16 body 0 = some i → s.shc.stations[i] = some sh → s.zoneInFire sh = true →
     (sh.kind = .fire → sh.state ≠ .opened →
       exec (.shutterRaise h body) s = .next (s.answered h 0x23 .refused .fire [])) ∧
     (sh.kind = .grille → sh.openOnFire = true → s.fzu.fire = true → sh.state = .closed ∨ sh.state = .haltedPart →
       (s.lines.openLim.getLsbD i.val && s.lines.closedLim.getLsbD i.val) = false →
       (sh.landing ≠ none → s.demand = .off) → s.msu.source = .mains ∨ s.msu.batteryLow = false →
       ∃ t, exec (.shutterRaise h body) s = .next t ∧ t.shc.stations[i] = some (sh.drivenUp true s.tmb.ownTime) ∧
         (h.held = false → s.Answers t h 0x23 .started .none []))) ∧
  (∀ (h : OrderHead) (body : List Byte) (i : Fin 16) (sh : Shutter) (s : State), s.Ready → Body.fin 16 body 0 = some i →
     s.shc.stations[i] = some sh →
     (body.length = 1 → sh.kind = .fire → exec (.shutterStop h body) s = .next (s.answered h 0x24 .refused .state [])) ∧
     (body.length = 1 → sh.kind = .grille → sh.state = .opened ∨ sh.state = .closed ∨ sh.state = .haltedPart →
       exec (.shutterStop h body) s = .next (s.answered h 0x24 .done .none [])) ∧
     (body.length = 1 → sh.kind = .grille → sh.state = .descending → s.toStore.Calm →
       exec (.shutterStop h body) s = .next (s.holding (s.toStore.withStation i (some (sh.restIn .haltedPart)))
         ((s.lnk.answered h 0x24 .done .none []).takeAll
           [.notice (.shutterState i (some .descending) .haltedPart .order),
             .ended (.shutterClose i) .ended .cancelled (Enc.byte ShutterState.haltedPart.code)]))) ∧
     (body.length = 1 → sh.kind = .grille → sh.state = .raising → s.toStore.Calm →
       exec (.shutterStop h body) s = .next (s.holding (s.toStore.withStation i (some (sh.restIn .haltedPart)))
         ((s.lnk.answered h 0x24 .done .none []).takeAll
           [.notice (.shutterState i (some .raising) .haltedPart .order),
             .ended (.shutterRaise i) .ended .cancelled (Enc.byte ShutterState.haltedPart.code)]))) ∧
     (body.length = 2 → sh.state ≠ .descending → sh.state ≠ .obstructed →
       (s.lines.openLim.getLsbD i.val && s.lines.closedLim.getLsbD i.val) = false →
       exec (.shutterClear h body) s = .next (s.holding
         (s.toStore.withStation i
           (some { sh with faults := sh.faults &&& ~~~ (Body.set8 body 1 &&& ~~~ FaultKind.notProven) }))
         (s.lnk.answered h 0x25 .done .none
           (Enc.set8 (sh.faults &&& ~~~ (Body.set8 body 1 &&& ~~~ FaultKind.notProven)))))))

/-- R73-R76: a limit reached ends the movement towards it, with the proof record of a proving fall, and does nothing to a
shutter that does not move; a closed grille forced off its limit is HALTED_PART. R79, R80: the second of the two limits
adds LIMIT_CONFLICT, halts a moving grille, and leaves a resting one, and a fire shutter to the rules of its state: a fall,
proving or not, ends in CLOSED and a raise in OPEN. R71, R78: an open fire shutter that leaves its limit falls with
LIMIT_LOST, an open grille is HALTED_PART with it, and with a linked one, of either kind, a chain whose demand is not OFF stops in
ESTOP. That OPEN_LIM going inactive in
the descent ends the magnet check for good is the model's reading (log 29), and so is that two kinds moved in one event
have a notice each (log 23); the order of the frames of an event is its choice (log 4), and so is a fall whatever the
closed limit (log 58). -/
def Obligations.LimitsOfShutters : Prop :=
  (∀ (i : Fin 16) (sh : Shutter) (s : State), s.toStore.Calm → s.shc.stations[i] = some sh →
     (s.lines.openLim.getLsbD i.val = false → s.lines.closedLim.getLsbD i.val = false → sh.state = .raising →
       exec (.openLimActive i) s = .next
         (s.holdingIn { s.toEnv with lines := { s.lines with openLim := adjoin s.lines.openLim i.val } }
           (s.toStore.withStation i (some (sh.restIn .opened)))
           (s.lnk.takeAll [.notice (.shutterState i (some .raising) .opened .limit),
             .ended (.shutterRaise i) .done .none (Enc.byte ShutterState.opened.code)]))) ∧
     (s.lines.openLim.getLsbD i.val = false → s.lines.closedLim.getLsbD i.val = false → sh.state = .descending →
       sh.kind = .fire → sh.proving = true →
       exec (.closedLimActive i) s = .next
         (s.holdingIn { s.toEnv with lines := { s.lines with closedLim := adjoin s.lines.closedLim i.val } }
           (s.toStore.withStation i (some { (sh.restIn .closed).dropFaults FaultKind.notProven with
             proof := some ⟨s.tmb.cal, sh.descent.ran s.tmb.ownTime⟩ }))
           (s.lnk.takeAll ([.notice (.shutterState i (some .descending) .closed .limit)] ++
             (if sh.has FaultKind.notProven = true then
               [.notice (.shutterFault i 0 (sh.faults &&& ~~~ FaultKind.notProven))] else []) ++
             [.ended (.shutterClose i) .done .none (Enc.byte ShutterState.closed.code)])))) ∧
     (s.lines.openLim.getLsbD i.val = false → s.lines.closedLim.getLsbD i.val = false →
       sh.state = .descending ∨ sh.state = .obstructed → sh.kind = .fire → sh.proving = false →
       exec (.closedLimActive i) s = .next
         (s.holdingIn { s.toEnv with lines := { s.lines with closedLim := adjoin s.lines.closedLim i.val } }
           (s.toStore.withStation i (some (sh.restIn .closed)))
           (s.lnk.takeAll [.notice (.shutterState i (some sh.state) .closed .limit),
             .ended (.shutterClose i) .done .none (Enc.byte ShutterState.closed.code)]))) ∧
     (s.lines.openLim.getLsbD i.val = false → s.lines.closedLim.getLsbD i.val = false → sh.state = .descending →
       sh.kind = .grille →
       exec (.closedLimActive i) s = .next
         (s.holdingIn { s.toEnv with lines := { s.lines with closedLim := adjoin s.lines.closedLim i.val } }
           (s.toStore.withStation i (some ((sh.restIn .closed).dropFaults FaultKind.notProven)))
           (s.lnk.takeAll ([.notice (.shutterState i (some .descending) .closed .limit)] ++
             (if sh.has FaultKind.notProven = true then
               [.notice (.shutterFault i 0 (sh.faults &&& ~~~ FaultKind.notProven))] else []) ++
             [.ended (.shutterClose i) .done .none (Enc.byte ShutterState.closed.code)])))) ∧
     (s.lines.openLim.getLsbD i.val = false → s.lines.closedLim.getLsbD i.val = false →
       (sh.state ≠ .raising →
         exec (.openLimActive i) s = .next
           (s.holdingIn { s.toEnv with lines := { s.lines with openLim := adjoin s.lines.openLim i.val } } s.toStore s.lnk)) ∧
       (sh.state ≠ .descending → ¬ (sh.kind = .fire ∧ sh.state = .obstructed) →
         exec (.closedLimActive i) s = .next
           (s.holdingIn { s.toEnv with lines := { s.lines with closedLim := adjoin s.lines.closedLim i.val } } s.toStore s.lnk))) ∧
     (s.lines.closedLim.getLsbD i.val = true → sh.kind = .grille → sh.state = .closed →
       exec (.closedLimInactive i) s = .next
         (s.holdingIn { s.toEnv with lines := { s.lines with closedLim := strike s.lines.closedLim i.val } }
           (s.toStore.withStation i (some { sh with state := .haltedPart }))
           (s.lnk.offer (.shutterState i (some .closed) .haltedPart .limit)))) ∧
     (s.lines.closedLim.getLsbD i.val = true → sh.kind = .fire →
       exec (.closedLimInactive i) s = .next
         (s.holdingIn { s.toEnv with lines := { s.lines with closedLim := strike s.lines.closedLim i.val } } s.toStore s.lnk))) ∧
  (∀ (i : Fin 16) (sh : Shutter) (conflict : List Offer) (s : State), s.toStore.Calm → s.shc.stations[i] = some sh →
     conflict = (if sh.has FaultKind.limitConflict = true then []
       else [.notice (.shutterFault i FaultKind.limitConflict (sh.faults ||| FaultKind.limitConflict))]) →
     (s.lines.openLim.getLsbD i.val = true → s.lines.closedLim.getLsbD i.val = false → sh.kind = .grille →
       sh.state = .descending ∨ sh.state = .raising →
       exec (.closedLimActive i) s = .next
         (s.holdingIn { s.toEnv with lines := { s.lines with closedLim := adjoin s.lines.closedLim i.val } }
           (s.toStore.withStation i (some ((sh.restIn .haltedPart).addFaults FaultKind.limitConflict)))
           (s.lnk.takeAll (conflict ++ [.notice (.shutterState i (some sh.state) .haltedPart .limit),
             .ended (if sh.state = .descending then .shutterClose i else .shutterRaise i) .ended .fault
               (Enc.byte ShutterState.haltedPart.code)])))) ∧
     (s.lines.openLim.getLsbD i.val = false → s.lines.closedLim.getLsbD i.val = true → sh.kind = .grille →
       sh.state = .descending ∨ sh.state = .raising →
       exec (.openLimActive i) s = .next
         (s.holdingIn { s.toEnv with lines := { s.lines with openLim := adjoin s.lines.openLim i.val } }
           (s.toStore.withStation i (some ((sh.restIn .haltedPart).addFaults FaultKind.limitConflict)))
           (s.lnk.takeAll (conflict ++ [.notice (.shutterState i (some sh.state) .haltedPart .limit),
             .ended (if sh.state = .descending then .shutterClose i else .shutterRaise i) .ended .fault
               (Enc.byte ShutterState.haltedPart.code)])))) ∧
     (s.lines.openLim.getLsbD i.val = true → s.lines.closedLim.getLsbD i.val = false → sh.kind = .fire →
       sh.state ≠ .descending → sh.state ≠ .obstructed →
       exec (.closedLimActive i) s = .next
         (s.holdingIn { s.toEnv with lines := { s.lines with closedLim := adjoin s.lines.closedLim i.val } }
           (s.toStore.withStation i (some (sh.addFaults FaultKind.limitConflict))) (s.lnk.takeAll conflict))) ∧
     (s.lines.openLim.getLsbD i.val = false → s.lines.closedLim.getLsbD i.val = true → sh.kind = .fire →
       sh.state ≠ .raising →
       exec (.openLimActive i) s = .next
         (s.holdingIn { s.toEnv with lines := { s.lines with openLim := adjoin s.lines.openLim i.val } }
           (s.toStore.withStation i (some (sh.addFaults FaultKind.limitConflict))) (s.lnk.takeAll conflict))) ∧
     (s.lines.openLim.getLsbD i.val = true → s.lines.closedLim.getLsbD i.val = false → sh.kind = .fire →
       sh.state = .descending ∨ sh.state = .obstructed → sh.proving = false →
       exec (.closedLimActive i) s = .next
         (s.holdingIn { s.toEnv with lines := { s.lines with closedLim := adjoin s.lines.closedLim i.val } }
           (s.toStore.withStation i (some ((sh.restIn .closed).addFaults FaultKind.limitConflict)))
           (s.lnk.takeAll ([.notice (.shutterState i (some sh.state) .closed .limit)] ++ conflict ++
             [.ended (.shutterClose i) .done .none (Enc.byte ShutterState.closed.code)])))) ∧
     (∀ faults, s.lines.openLim.getLsbD i.val = true → s.lines.closedLim.getLsbD i.val = false → sh.kind = .fire →
       sh.state = .descending → sh.proving = true →
       faults = sh.faults &&& ~~~ FaultKind.notProven ||| FaultKind.limitConflict →
       exec (.closedLimActive i) s = .next
         (s.holdingIn { s.toEnv with lines := { s.lines with closedLim := adjoin s.lines.closedLim i.val } }
           (s.toStore.withStation i (some { sh.restIn .closed with
             faults := faults, proof := some ⟨s.tmb.cal, sh.descent.ran s.tmb.ownTime⟩ }))
           (s.lnk.takeAll ([.notice (.shutterState i (some .descending) .closed .limit)] ++
             (if sh.has FaultKind.limitConflict = true then []
               else [.notice (.shutterFault i FaultKind.limitConflict faults)]) ++
             (if sh.has FaultKind.notProven = true then [.notice (.shutterFault i 0 faults)] else []) ++
             [.ended (.shutterClose i) .done .none (Enc.byte ShutterState.closed.code)])))) ∧
     (s.lines.openLim.getLsbD i.val = false → s.lines.closedLim.getLsbD i.val = true → sh.kind = .fire →
       sh.state = .raising →
       exec (.openLimActive i) s = .next
         (s.holdingIn { s.toEnv with lines := { s.lines with openLim := adjoin s.lines.openLim i.val } }
           (s.toStore.withStation i (some ((sh.restIn .opened).addFaults FaultKind.limitConflict)))
           (s.lnk.takeAll (conflict ++ [.notice (.shutterState i (some .raising) .opened .limit),
             .ended (.shutterRaise i) .done .none (Enc.byte ShutterState.opened.code)])))) ∧
     (s.lines.openLim.getLsbD i.val = true → s.lines.closedLim.getLsbD i.val = false → sh.kind = .grille →
       sh.state ≠ .descending → sh.state ≠ .raising →
       exec (.closedLimActive i) s = .next
         (s.holdingIn { s.toEnv with lines := { s.lines with closedLim := adjoin s.lines.closedLim i.val } }
           (s.toStore.withStation i (some (sh.addFaults FaultKind.limitConflict))) (s.lnk.takeAll conflict))) ∧
     (s.lines.openLim.getLsbD i.val = false → s.lines.closedLim.getLsbD i.val = true → sh.kind = .grille →
       sh.state ≠ .descending → sh.state ≠ .raising →
       exec (.openLimActive i) s = .next
         (s.holdingIn { s.toEnv with lines := { s.lines with openLim := adjoin s.lines.openLim i.val } }
           (s.toStore.withStation i (some (sh.addFaults FaultKind.limitConflict))) (s.lnk.takeAll conflict)))) ∧
  (∀ (i : Fin 16) (sh : Shutter) (lost : List Offer) (s : State), s.toStore.Calm → s.shc.stations[i] = some sh →
     s.lines.openLim.getLsbD i.val = true →
     lost = (if sh.has FaultKind.limitLost = true then []
       else [.notice (.shutterFault i FaultKind.limitLost (sh.faults ||| FaultKind.limitLost))]) →
     (sh.state = .descending →
       exec (.openLimInactive i) s = .next
         (s.holdingIn { s.toEnv with lines := { s.lines with openLim := strike s.lines.openLim i.val } }
           (s.toStore.withStation i (some { sh with magnetCheck := none })) s.lnk)) ∧
     (sh.kind = .fire → sh.state = .opened → (sh.landing ≠ none → s.demand = .off) →
       exec (.openLimInactive i) s = .next
         (s.holdingIn { s.toEnv with lines := { s.lines with openLim := strike s.lines.openLim i.val } }
           (s.toStore.withStation i
             (some ({ sh.released false s.tmb.ownTime with proving := false }.addFaults FaultKind.limitLost)))
           (s.lnk.takeAll (.notice (.shutterState i (some .opened) .descending .limit) :: lost)))) ∧
     (sh.kind = .grille → sh.state = .opened → (sh.landing ≠ none → s.demand = .off) →
       exec (.openLimInactive i) s = .next
         (s.holdingIn { s.toEnv with lines := { s.lines with openLim := strike s.lines.openLim i.val } }
           (s.toStore.withStation i (some ((sh.restIn .haltedPart).addFaults FaultKind.limitLost)))
           (s.lnk.takeAll (.notice (.shutterState i (some .opened) .haltedPart .limit) :: lost)))) ∧
     (sh.kind = .fire → sh.state = .opened → sh.landing ≠ none → s.demand ≠ .off →
       ∃ t, exec (.openLimInactive i) s = .next t ∧ t.pnc.state = .estop ∧
         t.pnc.causes = { CauseSet.empty with shutterMoved := adjoin 0 i.val } ∧ t.out.demand = .off ∧
         t.shc.stations[i] =
           some ({ sh.released false s.tmb.ownTime with proving := false }.addFaults FaultKind.limitLost)) ∧
     (sh.kind = .grille → sh.state = .opened → sh.landing ≠ none → s.demand ≠ .off →
       ∃ t, exec (.openLimInactive i) s = .next t ∧ t.pnc.state = .estop ∧
         t.pnc.causes = { CauseSet.empty with shutterMoved := adjoin 0 i.val } ∧ t.out.demand = .off ∧
         t.shc.stations[i] = some ((sh.restIn .haltedPart).addFaults FaultKind.limitLost)))

/-- R72, R75: an edge strike stops a fire shutter's descent in OBSTRUCTED, the third with OBSTRUCTED_REPEAT, and halts a
grille; the edge clear, its timer runs, and its end retries the descent or waits for the demand OFF. That the retry's
N-SHUTTER-STATE carries the cause EDGE is the model's reading (log 39); the order of the frames of an event is its choice
(log 4), and so is that a descent timer that has run out stays stopped in the obstruction and the retry (log 52) and that
the retry is made whatever the closed limit (log 58). -/
def Obligations.EdgesObstructAndRetry : Prop :=
  ∀ (i : Fin 16) (sh : Shutter) (s : State), s.toStore.Calm → s.shc.stations[i] = some sh →
    (s.lines.edge.getLsbD i.val = false → sh.kind = .fire → sh.state = .descending → sh.obstr ≠ 2 →
      exec (.edgeActive i) s = .next
        (s.holdingIn { s.toEnv with lines := { s.lines with edge := adjoin s.lines.edge i.val } }
          (s.toStore.withStation i
            (some { sh.pauseDescent s.tmb.ownTime with state := .obstructed, obstr := sh.obstr + 1, proving := false }))
          (s.lnk.offer (.shutterState i (some .descending) .obstructed .edge)))) ∧
    (s.lines.edge.getLsbD i.val = false → sh.kind = .fire → sh.state = .descending → sh.obstr = 2 →
      ∃ t x, exec (.edgeActive i) s = .next t ∧ t.shc.stations[i] = some x ∧ x.state = .obstructed ∧ x.obstr = 3 ∧
        x.faults = sh.faults ||| FaultKind.obstructedRepeat) ∧
    (s.lines.edge.getLsbD i.val = false → sh.kind = .grille → sh.state = .descending →
      exec (.edgeActive i) s = .next
        (s.holdingIn { s.toEnv with lines := { s.lines with edge := adjoin s.lines.edge i.val } }
          (s.toStore.withStation i (some (sh.restIn .haltedPart)))
          (s.lnk.takeAll [.notice (.shutterState i (some .descending) .haltedPart .edge),
            .ended (.shutterClose i) .ended .fault (Enc.byte ShutterState.haltedPart.code)]))) ∧
    (s.lines.edge.getLsbD i.val = true → sh.kind = .fire → sh.state = .obstructed → sh.obstr < 3 →
      exec (.edgeInactive i) s = .next
        (s.holdingIn { s.toEnv with lines := { s.lines with edge := strike s.lines.edge i.val } }
          (s.toStore.withStation i (some { sh with edgeClear := some (s.tmb.ownTime + 500) })) s.lnk)) ∧
    (sh.edgeClear ≠ none → sh.state = .obstructed → (sh.landing = none ∨ s.demand = .off) →
      exec (.edgeClearTimerExpiry i) s = .next (s.holding (s.toStore.withStation i (some (sh.retried s.tmb.ownTime)))
        (s.lnk.offer (.shutterState i (some .obstructed) .descending .edge)))) ∧
    (sh.edgeClear ≠ none → sh.state = .obstructed → sh.landing ≠ none → s.demand ≠ .off →
      exec (.edgeClearTimerExpiry i) s = .next
        (s.holding (s.toStore.withStation i (some { sh with edgeClear := none, retryWait := true })) s.lnk))

/-- R71, R73-R76: a descent, magnet check or raise that outlasts its timer is a fault, and stops a grille. The order of
the frames of an event is the model's choice (log 4), and so is the fall after a raise that timed out at the closed limit
(log 58). -/
def Obligations.ShutterTimersFault : Prop :=
  ∀ (i : Fin 16) (sh : Shutter) (s : State), s.toStore.Calm → s.shc.stations[i] = some sh →
    (∀ a b, sh.descent = .running a b → sh.state = .descending → sh.kind = .fire →
      sh.has FaultKind.descentSlow = false →
      exec (.descentTimerExpiry i) s = .next (s.holding
        (s.toStore.withStation i
          (some ({ sh with descent := .stopped, proving := false }.addFaults FaultKind.descentSlow)))
        (s.lnk.takeAll [.notice (.shutterFault i FaultKind.descentSlow (sh.faults ||| FaultKind.descentSlow)),
          .ended (.shutterClose i) .ended .fault (Enc.byte ShutterState.descending.code)]))) ∧
    (∀ a b, sh.descent = .running a b → sh.state = .descending → sh.kind = .grille →
      ∃ t, exec (.descentTimerExpiry i) s = .next t ∧
        t.shc.stations[i] = some ((sh.restIn .haltedPart).addFaults FaultKind.descentSlow)) ∧
    (sh.magnetCheck ≠ none → s.lines.openLim.getLsbD i.val = true →
      ∃ t, exec (.magnetCheckExpiry i) s = .next t ∧
        t.shc.stations[i] = some ({ sh with magnetCheck := none }.addFaults FaultKind.magnetStuck)) ∧
    (sh.magnetCheck ≠ none → s.lines.openLim.getLsbD i.val = false →
      exec (.magnetCheckExpiry i) s = .next
        (s.holding (s.toStore.withStation i (some { sh with magnetCheck := none })) s.lnk)) ∧
    (sh.raiseTimer ≠ none → sh.state = .raising → sh.kind = .fire →
      ∃ t, exec (.raiseTimerExpiry i) s = .next t ∧
        t.shc.stations[i] = some ((sh.released (s.lines.openLim.getLsbD i.val) s.tmb.ownTime).addFaults FaultKind.raiseSlow)) ∧
    (sh.raiseTimer ≠ none → sh.state = .raising → sh.kind = .grille →
      ∃ t, exec (.raiseTimerExpiry i) s = .next t ∧
        t.shc.stations[i] = some ((sh.restIn .haltedPart).addFaults FaultKind.raiseSlow))

/-! ## Fire zones (05) -/

/-- R90, R96, R100: a change of ZONE_IN moves its enabled zone, and with the zones the fire condition and its deadline;
the input of a disabled zone does not. R92-R94: ZONE-DECLARE, ZONE-RESET, ZONE-DISABLE and ZONE-ENABLE move their zone,
find it so already, or are refused. That a ZONE_IN already at its level changes nothing is the model's choice (log 9). -/
def Obligations.ZonesMove : Prop :=
  (∀ (z : Fin 6) (s : State), s.FireFollowsZones →
     (s.lines.zoneIn.getLsbD z.val = false →
       ∃ t, exec (.zoneInActive z) s = .next t ∧ t.lines = { s.lines with zoneIn := adjoin s.lines.zoneIn z.val } ∧
         t.fzu = s.fzu.withZone z
           (if s.fzu.zones[z].enabled = true ∧ s.fzu.zones[z].state ≠ .alarmed then
             { s.fzu.zones[z] with state := .alarmed, declared := false } else s.fzu.zones[z]) s.tmb.ownTime ∧
         s.SameSettings t) ∧
     (s.lines.zoneIn.getLsbD z.val = true →
       ∃ t, exec (.zoneInInactive z) s = .next t ∧ t.lines = { s.lines with zoneIn := strike s.lines.zoneIn z.val } ∧
         t.fzu = s.fzu.withZone z
           (if s.fzu.zones[z].enabled = true ∧ s.fzu.zones[z].state = .alarmed ∧ s.fzu.zones[z].declared = false then
             { s.fzu.zones[z] with state := .standing } else s.fzu.zones[z]) s.tmb.ownTime ∧
         s.SameSettings t) ∧
     (s.lines.zoneIn.getLsbD z.val = true → exec (.zoneInActive z) s = .next s) ∧
     (s.lines.zoneIn.getLsbD z.val = false → exec (.zoneInInactive z) s = .next s)) ∧
  (∀ (h : OrderHead) (body : List Byte) (z : Fin 6) (s : State), s.Ready → s.FireFollowsZones → body.length = 1 →
     Body.fin 6 body 0 = some z →
     (s.fzu.zones[z].enabled = true →
       ∃ t, exec (.zoneDeclare h body) s = .next t ∧
         t.fzu = s.fzu.withZone z { s.fzu.zones[z] with state := .alarmed, declared := true } s.tmb.ownTime ∧
         s.SameSettings t ∧ s.Answers t h 0x32 .done .none []) ∧
     (s.fzu.zones[z].enabled = false → exec (.zoneDeclare h body) s = .next (s.answered h 0x32 .refused .state [])) ∧
     (s.fzu.zones[z].state = .standing ∨ s.fzu.zones[z].state = .alarmed ∧ s.fzu.zones[z].declared = true ∧
         s.lines.zoneIn.getLsbD z.val = false →
       ∃ t, exec (.zoneReset h body) s = .next t ∧
         t.fzu = s.fzu.withZone z { s.fzu.zones[z] with state := .quiet, declared := false } s.tmb.ownTime ∧
         s.SameSettings t ∧ s.Answers t h 0x33 .done .none []) ∧
     (s.fzu.zones[z].state = .quiet ∨ s.fzu.zones[z].state = .alarmed ∧
         (s.fzu.zones[z].declared = false ∨ s.lines.zoneIn.getLsbD z.val = true) →
       exec (.zoneReset h body) s = .next (s.answered h 0x33 .refused .state [])) ∧
     (s.msu.key = true → s.fzu.zones[z].enabled = true → s.fzu.zones[z].state = .quiet →
       ∃ t, exec (.zoneDisable h body) s = .next t ∧
         t.fzu = s.fzu.withZone z { s.fzu.zones[z] with enabled := false } s.tmb.ownTime ∧
         s.SameSettings t ∧ s.Answers t h 0x34 .done .none []) ∧
     (s.msu.key = true → s.fzu.zones[z].enabled = true → s.fzu.zones[z].state ≠ .quiet →
       exec (.zoneDisable h body) s = .next (s.answered h 0x34 .refused .state [])) ∧
     (s.msu.key = true → s.fzu.zones[z].enabled = false →
       exec (.zoneDisable h body) s = .next (s.answered h 0x34 .done .none [])) ∧
     (s.msu.key = true → s.fzu.zones[z].enabled = true →
       exec (.zoneEnable h body) s = .next (s.answered h 0x35 .done .none [])) ∧
     (s.msu.key = true → s.fzu.zones[z].enabled = false →
       ∃ t, exec (.zoneEnable h body) s = .next t ∧
         t.fzu = s.fzu.withZone z
           (if s.lines.zoneIn.getLsbD z.val = true then
             { s.fzu.zones[z] with enabled := true, state := .alarmed, declared := false }
             else { s.fzu.zones[z] with enabled := true }) s.tmb.ownTime ∧
         s.SameSettings t ∧ s.Answers t h 0x35 .done .none []) ∧
     (s.msu.key = false → exec (.zoneDisable h body) s = .next (s.answered h 0x34 .refused .locked []) ∧
       exec (.zoneEnable h body) s = .next (s.answered h 0x35 .refused .locked [])))

/-- R95, R97, R99: ZONE-SET and FIRE-SET load what they carry under the key, and ZONE-READ reports; out of a fire
nothing else changes. The layout of the answer, where R184 tables none, is the model's reading (log 3), and so is that the
time left of the reserve hold is rounded down to whole seconds (log 43). -/
def Obligations.ZoneRecordsAndFireSettings : Prop :=
  ∀ (h : OrderHead) (body : List Byte) (s : State), s.Ready →
    (∀ (z : Fin 6) (l : BitVec 10), body.length = 3 → s.msu.key = true → Body.fin 6 body 0 = some z →
      Body.lines body 1 = some l → s.fzu.zones[z].state = .quiet →
      exec (.zoneSet h body) s = .next (s.holding
        { s.toStore with fzu := { s.fzu with zones := put s.fzu.zones z { s.fzu.zones[z] with lines := l } } }
        (s.lnk.answered h 0x30 .done .none (Enc.set16 l)))) ∧
    (∀ (z : Fin 6) (l : BitVec 10), body.length = 3 → s.msu.key = true → Body.fin 6 body 0 = some z →
      Body.lines body 1 = some l → s.fzu.zones[z].state ≠ .quiet →
      ∃ t, exec (.zoneSet h body) s = .next t ∧
        t.fzu = { s.fzu with zones := put s.fzu.zones z { s.fzu.zones[z] with lines := l } } ∧ s.SameSettings t ∧
        s.Answers t h 0x30 .done .none (Enc.set16 l)) ∧
    (∀ (wait hold rep : Nat) (script : Option (Fin 16)) (code : BellCode), body.length = 8 → s.msu.key = true →
      wait = Body.byte body 0 → hold = Body.byte body 1 → Body.optFin 16 body 2 = some script →
      Body.bellCode body 3 = some code → rep = Body.byte body 7 → 2 ≤ wait → wait ≤ 60 → hold ≤ 30 → 10 ≤ rep →
      rep ≤ 120 →
      exec (.fireSet h body) s = .next (s.holding
        { s.toStore with fzu := { s.fzu with clearanceWait := wait, reserveHold := hold, fireScript := script, alertCode := code, fireRepeat := rep } }
        (s.lnk.answered h 0x36 .done .none (Enc.byte wait ++ Enc.byte hold ++ Enc.optByte (script.map Fin.val) ++
          Enc.bellCode code ++ Enc.byte rep)))) ∧
    (body.length = 3 → s.msu.key = false → exec (.zoneSet h body) s = .next (s.answered h 0x30 .refused .locked [])) ∧
    (body.length = 8 → s.msu.key = false → exec (.fireSet h body) s = .next (s.answered h 0x36 .refused .locked [])) ∧
    (∀ z : Fin 6, body.length = 1 → Body.fin 6 body 0 = some z →
      exec (.zoneRead h body) s = .next (s.answered h 0x31 .done .none
        (Enc.zone s.fzu.zones[z] (s.lines.zoneIn.getLsbD z.val) ++ Enc.flag s.fzu.fire ++ Enc.set8 s.alarmed ++
          Enc.set8 s.standing ++ Enc.deadline s.tmb.ownTime s.fzu.deadline ++ Enc.hold s.tmb.ownTime s.fzu.hold ++
          Enc.fireSettings s.fzu)))

/-- R59, R146: the fire condition becoming ACTIVE takes the chain out of service running, begins fire playback on every
speaker, and leaves no announcement waiting or playing. R121: with it every present bell line comes to be owned by the
ringer of a standing call, EVAC those of the zones in fire and ALERT the others. R84, R85: a zone's alarm releases its
open and raising fire shutters, or leaves those whose landing is not clear in RELEASE_WAIT; no step leaves a fire shutter
of a zone in fire OPEN or RAISING. R86: the alarm raises the open-on-fire grilles of the zones in fire once the demand of
a linked one is OFF, and halts every other grille that descends; a raise left out for want of supply is made when its
use is permitted again. How a grille's waiting is held is the model's reading (log 21), and so is that a grille is driven up
where its open limit is already active (log 20). That an open-on-fire grille that descends while its fire use is not
permitted is halted, and waits as those at rest do, is its choice (log 56), and so is a release whatever the closed limit
(log 58). That a linked grille that finds the demand OFF at the alarm rises, before the chain's rest under fire is evaluated,
is its choice of an order in the event (log 5). -/
def Obligations.FireConditionActsOnTheStore : Prop :=
  (∀ (z : Fin 6) (s : State), s.FireFollowsZones → s.fzu.fire = false → s.lines.zoneIn.getLsbD z.val = false →
     s.fzu.zones[z].enabled = true →
     ∃ t, exec (.zoneInActive z) s = .next t ∧ t.fzu.fire = true ∧ t.out.demand ≠ .service ∧ t.anp.fire = true ∧
       t.anp.queue = [] ∧ t.anp.pendingCut = false ∧
       (s.anp.fire = false → t.anp.state = .preparing ∧ t.anp.playing = none ∧
         t.anp.timer = some (s.tmb.ownTime + 25) ∧ t.out.spk = 0xFF ∧ t.out.ampEn = true) ∧
       (s.blx.standing .evac = none → s.blx.standing .alert = none → ∀ l : Fin 10,
         (s.blx.present.getLsbD l.val = true → ∃ r : Fin 3, t.blx.ringers[r].lines.getLsbD l.val = true ∧
           t.blx.ringers[r].state = .striking ∧ t.blx.ringers[r].held =
             some (if ∃ x : Fin 6, t.fzu.zones[x].state ≠ .quiet ∧ t.fzu.zones[x].lines.getLsbD l.val = true then .evac
               else .alert)))) ∧
  (∀ (z : Fin 6) (i : Fin 16) (sh : Shutter) (s : State), s.FireFollowsZones → s.lines.zoneIn.getLsbD z.val = false →
     s.fzu.zones[z].enabled = true → s.fzu.zones[z].state ≠ .alarmed → s.shc.stations[i] = some sh →
     sh.retryWait = false →
     (sh.kind = .fire → sh.zone = some z → sh.state = .opened → s.landingClear sh = true →
       s.Leaves (.zoneInActive z) i (sh.released (s.lines.openLim.getLsbD i.val) s.tmb.ownTime)) ∧
     (sh.kind = .fire → sh.zone = some z → sh.state = .opened → s.landingClear sh = false → s.fzu.deadline = .spent →
       s.Leaves (.zoneInActive z) i
         ((sh.released (s.lines.openLim.getLsbD i.val) s.tmb.ownTime).addFaults FaultKind.forced)) ∧
     (sh.kind = .fire → sh.zone = some z → sh.state = .opened → s.landingClear sh = false → s.fzu.deadline ≠ .spent →
       ∃ t, exec (.zoneInActive z) s = .next t ∧ t.shc.stations[i] = some
         (if t.landingClear sh = true then sh.released (s.lines.openLim.getLsbD i.val) s.tmb.ownTime
           else { sh with state := .releaseWait })) ∧
     (sh.kind = .fire → sh.zone = some z → sh.state = .raising →
       s.Leaves (.zoneInActive z) i (sh.released (s.lines.openLim.getLsbD i.val) s.tmb.ownTime)) ∧
     (sh.kind = .grille → sh.openOnFire = true → sh.zone = some z ∨ s.zoneInFire sh = true →
       sh.state = .closed ∨ sh.state = .haltedPart ∨ sh.state = .descending → sh.landing = none ∨ s.demand = .off →
       s.msu.source = .mains ∨ s.msu.batteryLow = false →
       s.Leaves (.zoneInActive z) i (sh.drivenUp true s.tmb.ownTime)) ∧
     (sh.kind = .grille → sh.openOnFire = true → sh.zone = some z ∨ s.zoneInFire sh = true →
       sh.state = .closed ∨ sh.state = .haltedPart ∨ sh.state = .descending → sh.landing = none ∨ s.demand = .off →
       s.msu.source = .reserve → s.msu.batteryLow = true →
       s.Leaves (.zoneInActive z) i
         { (if sh.state = .descending then sh.restIn .haltedPart else sh) with fireWait := false, supplyWait := true }) ∧
     (sh.kind = .grille → sh.openOnFire = true → sh.zone = some z ∨ s.zoneInFire sh = true →
       sh.state = .closed ∨ sh.state = .haltedPart ∨ sh.state = .descending → sh.landing ≠ none → s.demand ≠ .off →
       s.msu.source = .mains →
       ∃ t, exec (.zoneInActive z) s = .next t ∧ t.shc.stations[i] = some
         (if t.demand = .off then sh.drivenUp true s.tmb.ownTime
           else { (if sh.state = .descending then sh.restIn .haltedPart else sh) with fireWait := true })) ∧
     (sh.kind = .grille → sh.state = .descending →
       sh.openOnFire = false ∨ sh.zone ≠ some z ∧ s.zoneInFire sh = false →
       s.Leaves (.zoneInActive z) i (sh.restIn .haltedPart)) ∧
     (sh.kind = .grille → sh.state = .opened ∨ sh.state = .raising → s.Leaves (.zoneInActive z) i sh)) ∧
  (∀ (i : Fin 16) (sh : Shutter) (s : State), s.msu.source = .reserve → s.msu.batteryLow = true → s.fzu.fire = true →
     s.shc.stations[i] = some sh → sh.kind = .grille → sh.supplyWait = true → s.zoneInFire sh = true →
     sh.state = .closed ∨ sh.state = .haltedPart → sh.retryWait = false →
     (s.lines.mainsOk = false →
       ∃ t, exec .mainsReturn s = .next t ∧ (sh.landing = none ∨ t.demand = .off →
         t.shc.stations[i] = some (sh.drivenUp true s.tmb.ownTime))) ∧
     (s.lines.battLow = true →
       ∃ t, exec .battLowClear s = .next t ∧ (sh.landing = none ∨ t.demand = .off →
         t.shc.stations[i] = some (sh.drivenUp true s.tmb.ownTime)))) ∧
  (∀ s t : State, s.FireFollowsZones → s.FireShuttersDown → step s = .next t → t.FireShuttersDown)

/-- R85, R87, R101, R103: the clearance deadline's end stops a demand that is not OFF and releases every waiting shutter
with FORCED; the reserve-hold timer's end releases every fire shutter held open or raising. A release whatever the
closed limit is the model's choice (log 58). -/
def Obligations.FireTimersRelease : Prop :=
  ∀ (s : State), s.cpu.run = none →
    (∀ x, s.fzu.deadline = .running x →
      ∃ t, exec .clearanceDeadlineExpiry s = .next t ∧ t.fzu = { s.fzu with deadline := .spent } ∧
        (¬ (s.pnc.state = .settling ∧ s.cht.settled = true) → t.out.demand = .off) ∧
        (∀ (i : Fin 16) (sh : Shutter), s.shc.stations[i] = some sh → sh.kind = .fire → sh.state = .releaseWait →
          t.shc.stations[i] =
            some ((sh.released (s.lines.openLim.getLsbD i.val) s.tmb.ownTime).addFaults FaultKind.forced)) ∧
        s.SameSettings t) ∧
    (∀ x, s.fzu.hold = .running x →
      ∃ t, exec .reserveHoldExpiry s = .next t ∧ t.fzu = { s.fzu with hold := .expired } ∧
        (∀ (i : Fin 16) (sh : Shutter), s.shc.stations[i] = some sh → sh.kind = .fire →
          sh.state = .opened ∨ sh.state = .releaseWait ∨ sh.state = .raising →
          t.shc.stations[i] = some
            (if s.landingClear sh = true then sh.released (s.lines.openLim.getLsbD i.val) s.tmb.ownTime
              else (sh.released (s.lines.openLim.getLsbD i.val) s.tmb.ownTime).addFaults FaultKind.forced)) ∧
        s.SameSettings t)

/-! ## Staff bell calls (06) -/

/-- R108: BELL-SET loads the three settings, refuses a change of the present lines while a call is in being, and out
of a fire changes nothing else. R184: a CALL-POST body carries the post, its code of 1 to 4 groups of 1 to 9 strokes.
R111-R113: the post merges with a call of the same code, lines and class, is admitted, or is refused by the first of its
checks that fails. The layout of the answer of BELL-SET, which R184 does not table, is the model's reading (log 3). -/
def Obligations.BellSettingsAndPosts : Prop :=
  (∀ (h : OrderHead) (body : List Byte) (present : BitVec 10) (s : State), s.Ready → body.length = 4 →
     Body.lines body 0 = some present → present ≠ 0 → 2 ≤ Body.byte body 2 → Body.byte body 2 ≤ 30 →
     5 ≤ Body.byte body 3 → Body.byte body 3 ≤ 60 →
     (present = s.blx.present ∨ s.blx.calls = [] → s.toStore.Calm →
       exec (.bellSet h body) s = .next (s.holding
         { s.toStore with blx := { s.blx with present := present, gap := Body.byte body 2, window := Body.byte body 3 } }
         (s.lnk.answered h 0x40 .done .none
           (Enc.set16 present ++ Enc.byte (Body.byte body 2) ++ Enc.byte (Body.byte body 3))))) ∧
     (present ≠ s.blx.present → s.blx.calls ≠ [] →
       exec (.bellSet h body) s = .next (s.answered h 0x40 .refused .busy []))) ∧
  (∀ (h : OrderHead) (body : List Byte) (p : Post) (s : State), s.Ready → s.MayHold h → body.length = 9 →
     Body.post body h.held = some p →
     (∀ x, s.callRefusal p = some x → exec (.callPost h body) s = .next (s.answered h 0x41 .refused x [])) ∧
     (∀ n b, s.callRefusal p = none → s.blx.merge p = some (n, b) → s.toStore.Calm →
       exec (.callPost h body) s = .next
         (s.holding { s.toStore with blx := b.assign } (s.lnk.answered h 0x41 .merged .none (Enc.byte n)))) ∧
     (s.callRefusal p = none → s.blx.merge p = none → s.toStore.Calm →
       exec (.callPost h body) s = .next
         (s.holding { s.toStore with blx := (s.blx.enrol p).2.assign }
           (s.lnk.began h 0x41 (.call (s.blx.enrol p).1) (Enc.byte (s.blx.enrol p).1))))) ∧
  (∀ (h : OrderHead) (body : List Byte) (s : State), s.Ready → s.MayHold h →
     (body.length ≠ 9 → exec (.callPost h body) s = .next (s.answered h 0x41 .refused .form [])) ∧
     (body.length = 9 → Body.post body h.held = none →
       exec (.callPost h body) s = .next (s.answered h 0x41 .refused .range []))) ∧
  (∀ (body : List Byte) (held : Bool) (p : Post), body.length = 9 →
     (Body.post body held = some p ↔
       body = Enc.bellCode p.code ++ Enc.set16 p.lines ++ Enc.byte p.cls.code ++ Enc.byte p.repeats ++
         Enc.byte ((if p.wantAnswer = true then 1 else 0) + (if p.escalate = true then 2 else 0)) ∧
       1 ≤ p.code.length ∧ p.code.length ≤ 4 ∧ (∀ n ∈ p.code, 1 ≤ n ∧ n ≤ 9) ∧ p.repeats ≤ 255 ∧ p.origin = .host ∧
       p.heldRef = held))

/-- R109-R111: an admitted call takes the next call number, or the first after it, 1 following 255, that no call has, and
stands at the tail of its class; the next call number is then the one after. R112: a post merges when a call has its code,
lines and class; the merge names that call, raises its repeats and what remains of them, joins the answer-wanted flags,
strikes again where a round is added in AWAITING, and leaves every call its number and its place. -/
def Obligations.AdmissionAndMerge : Prop :=
  (∀ (p : Post) (b : Blx), 1 ≤ b.nextNumber → b.nextNumber ≤ 255 → b.calls.length < 16 →
    1 ≤ (b.enrol p).1 ∧ (b.enrol p).1 ≤ 255 ∧ (∀ c ∈ b.calls, c.number ≠ (b.enrol p).1) ∧
    (∃ k, (b.enrol p).1 = (b.nextNumber - 1 + k) % 255 + 1 ∧
      ∀ j < k, ∃ c ∈ b.calls, c.number = (b.nextNumber - 1 + j) % 255 + 1) ∧
    (b.enrol p).2.nextNumber = (b.enrol p).1 % 255 + 1 ∧
    (b.enrol p).2.ringers = b.ringers ∧
    ∃ c : Call, c.number = (b.enrol p).1 ∧ c.code = p.code ∧ c.lines = p.lines ∧ c.cls = p.cls ∧ c.repeats = p.repeats ∧
      c.remaining = p.repeats ∧ c.wantAnswer = p.wantAnswer ∧ c.escalate = p.escalate ∧ c.origin = p.origin ∧
      c.guard = false ∧ c.rounds = 0 ∧
      (b.enrol p).2.queue =
        b.queue.filter (fun x => x.cls.rank ≤ c.cls.rank) ++ c :: b.queue.filter (fun x => c.cls.rank < x.cls.rank)) ∧
  (∀ (p : Post) (b b' : Blx) (n : Nat), b.merge p = some (n, b') →
    (∃ c ∈ b.calls, c.number = n ∧ c.code = p.code ∧ c.lines = p.lines ∧ c.cls = p.cls) ∧
    b'.calls.map Call.number = b.calls.map Call.number ∧ b'.nextNumber = b.nextNumber) ∧
  (∀ (p : Post) (b : Blx), b.merge p = none → ∀ c ∈ b.calls, ¬ (c.code = p.code ∧ c.lines = p.lines ∧ c.cls = p.cls)) ∧
  (∀ (p : Post) (b : Blx) (pre post : List Call) (c : Call), b.queue = pre ++ c :: post →
    c.code = p.code → c.lines = p.lines → c.cls = p.cls →
    (∀ x ∈ pre ++ post, ¬ (x.code = p.code ∧ x.lines = p.lines ∧ x.cls = p.cls)) →
    b.merge p = some (c.number, { b with queue := pre ++ { c with
      repeats := max c.repeats p.repeats, remaining := max c.repeats p.repeats,
      wantAnswer := c.wantAnswer || p.wantAnswer } :: post })) ∧
  ∀ (p : Post) (b : Blx) (r : Fin 3) (c c' : Call), b.ringers[r].held = some (.ordinary c) →
    c.code = p.code → c.lines = p.lines → c.cls = p.cls →
    (∀ x ∈ b.queue, ¬ (x.code = p.code ∧ x.lines = p.lines ∧ x.cls = p.cls)) →
    (∀ (r' : Fin 3) (x : Call), b.ringers[r'].held = some (.ordinary x) → x.code = p.code → x.lines = p.lines →
      x.cls = p.cls → r' = r) →
    c' = { c with
      repeats := max c.repeats p.repeats, remaining := c.remaining + (max c.repeats p.repeats - c.repeats),
      wantAnswer := c.wantAnswer || p.wantAnswer } →
    (b.ringers[r].state = .awaiting → 0 < c'.remaining →
      b.merge p = some (c.number, b.setRinger r { b.ringers[r] with
        held := some (.ordinary c'), state := .striking, stroke := ⟨c.code, 0, 0, true⟩, timer := none })) ∧
    (b.ringers[r].state ≠ .awaiting ∨ c'.remaining = 0 →
      b.merge p = some (c.number, b.setRinger r { b.ringers[r] with held := some (.ordinary c') }))

/-- R115: each IDLE ringer in turn, the lowest-numbered first, takes the first call of the queue whose lines are all
unowned, with its guard set, and strikes it; one that finds none, or that holds a call, stays as it is. Every call stays in
being. After an assignment no ringer is IDLE while a queued call's lines are all free, and the lines of ringers stay apart.
-/
def Obligations.AssignmentLeavesNoCallServable : Prop :=
  (∀ b : Blx, (∀ r : Fin 3, b.ringers[r].held = none → b.ringers[r].lines = 0) →
    ((∃ r : Fin 3, b.assign.ringers[r].held = none) → ∀ c ∈ b.assign.queue, c.lines &&& b.assign.owned ≠ 0) ∧
    ((∀ r r' : Fin 3, r ≠ r' → b.ringers[r].lines &&& b.ringers[r'].lines = 0) →
      ∀ r r' : Fin 3, r ≠ r' → b.assign.ringers[r].lines &&& b.assign.ringers[r'].lines = 0)) ∧
  (∀ b : Blx, b.assign = ((b.assignOne 0).assignOne 1).assignOne 2 ∧
    (b.assign.calls.map Call.number).Perm (b.calls.map Call.number)) ∧
  (∀ (b : Blx) (r : Fin 3), b.ringers[r].held ≠ none ∨ (∀ c ∈ b.queue, c.lines &&& b.owned ≠ 0) →
    b.assignOne r = b) ∧
  ∀ (b : Blx) (r : Fin 3) (pre post : List Call) (c : Call), b.ringers[r].held = none → b.queue = pre ++ c :: post →
    (∀ x ∈ pre, x.lines &&& b.owned ≠ 0) → c.lines &&& b.owned = 0 →
    b.assignOne r = { b with
      queue := pre ++ post,
      ringers := put b.ringers r
        ⟨.striking, some (.ordinary { c with guard := true }), c.lines, ⟨c.code, 0, 0, true⟩, none⟩ }

/-- R116-R118: what a round's end, the repeat gap's end, an answer and the answer window's end make of an ordinary call;
an escalated one is merged or admitted anew. R107, R117: the end of a stroke's on time clears the answer guard and turns
the lines off; its off time's end gives the next stroke; an answer under the guard is ignored. R107, R121, R122: under
fire the ALERT ringer strikes and pauses in turn without count, each round with the alert code as it then stands; the EVAC
ringer's stroke goes on and off for as long as it stands; both ignore an answer. That the row of a round's end ends the
round wherever the stroke stands, and that the guard has a row of its own beside the end of the stroke, is the model's
choice (log 12), and so is the order of the frames of an event (log 4). -/
def Obligations.RoundsStrokesAndAnswers : Prop :=
  (∀ (r : Fin 3) (c : Call) (s : State), s.toStore.Calm → s.blx.ringers[r].held = some (.ordinary c) →
     (s.blx.ringers[r].state = .striking → 1 < c.remaining →
       exec (.roundComplete r) s = .next (s.holding
         { s.toStore with blx := (s.blx.setRinger r ({ s.blx.ringers[r] with held := some (.ordinary { c with remaining := c.remaining - 1, rounds := c.rounds + 1, guard := false }) }.wait .pausing
           (some (s.tmb.ownTime + s.blx.gap * 100)))).assign } s.lnk)) ∧
     (s.blx.ringers[r].state = .striking → c.remaining ≤ 1 → c.wantAnswer = true →
       exec (.roundComplete r) s = .next (s.holding
         { s.toStore with blx := (s.blx.setRinger r ({ s.blx.ringers[r] with held := some (.ordinary { c with remaining := c.remaining - 1, rounds := c.rounds + 1, guard := false }) }.wait .awaiting
           (some (s.tmb.ownTime + s.blx.window * 100)))).assign } s.lnk)) ∧
     (s.blx.ringers[r].state = .striking → c.remaining ≤ 1 → c.wantAnswer = false →
       exec (.roundComplete r) s = .next (s.holding { s.toStore with blx := (s.blx.setRinger r .idle).assign }
         (s.lnk.takeAll [.notice (.callEnd { c with remaining := c.remaining - 1, rounds := c.rounds + 1, guard := false } .rung none .none),
           .ended (.call c.number) .done .none []]))) ∧
     (s.blx.ringers[r].state = .pausing →
       exec (.repeatGapEnd r) s = .next (s.holding
         { s.toStore with blx := (s.blx.setRinger r (s.blx.ringers[r].strike c.code)).assign } s.lnk)) ∧
     (s.blx.ringers[r].state = .awaiting → ¬ (c.cls = .urgent ∧ c.escalate = true) →
       exec (.answerWindowExpiry r) s = .next (s.holding { s.toStore with blx := (s.blx.setRinger r .idle).assign }
         (s.lnk.takeAll [.notice (.callEnd c .unanswered none .none), .ended (.call c.number) .ended .unanswered []]))) ∧
     (∀ (p : Post) (b : Blx), s.blx.ringers[r].state = .awaiting → c.cls = .urgent → c.escalate = true →
       p = ⟨c.code, s.blx.present, .urgent, c.repeats, c.wantAnswer, false, c.origin, false⟩ →
       b = s.blx.setRinger r .idle →
       (∀ n b', b.merge p = some (n, b') →
         exec (.answerWindowExpiry r) s = .next (s.holding { s.toStore with blx := b'.assign }
           (s.lnk.takeAll [.notice (.callEnd c .unanswered none (.merged n)),
             .ended (.call c.number) .ended .unanswered []]))) ∧
       (b.merge p = none →
         exec (.answerWindowExpiry r) s = .next (s.holding { s.toStore with blx := (b.enrol p).2.assign }
           (s.lnk.takeAll [.notice (.callEnd c .unanswered none (.escalated (b.enrol p).1)),
             .ended (.call c.number) .ended .unanswered []])))) ∧
     (∀ l : Fin 10, s.lines.answer.getLsbD l.val = false → s.blx.ringers[r].lines.getLsbD l.val = true →
       (∀ r' : Fin 3, s.blx.ringers[r'].lines.getLsbD l.val = true → r' = r) → c.wantAnswer = true → c.guard = false →
       exec (.answerInput l) s = .next (s.holdingIn { s.toEnv with lines := { s.lines with answer := adjoin s.lines.answer l.val } }
         { s.toStore with blx := (s.blx.setRinger r .idle).assign }
         (s.lnk.takeAll [.notice (.callEnd c .answered (some l) .none),
           .ended (.call c.number) .done .none (Enc.byte l.val)])))) ∧
  (∀ (r : Fin 3) (c : Call) (s : State), s.toStore.Calm → s.blx.ringers[r].held = some (.ordinary c) →
     (exec (.answerGuardClear r) s = .next (s.holding
       { s.toStore with blx := (s.blx.setRinger r { s.blx.ringers[r] with held := some (.ordinary { c with guard := false }) }).assign } s.lnk)) ∧
     (s.blx.ringers[r].state = .striking → s.blx.ringers[r].stroke.on = true →
       exec (.strokeTimeEnd r) s = .next (s.holding
         { s.toStore with blx := (s.blx.setRinger r { s.blx.ringers[r] with held := some (.ordinary { c with guard := false }), stroke := { s.blx.ringers[r].stroke with on := false } }).assign } s.lnk)) ∧
     (∀ g k, s.blx.ringers[r].state = .striking → s.blx.ringers[r].stroke = ⟨c.code, g, k, false⟩ →
       exec (.strokeTimeEnd r) s = .next (s.holding
         { s.toStore with blx := (s.blx.setRinger r { s.blx.ringers[r] with stroke := if k + 1 < c.code.getD g 0 then ⟨c.code, g, k + 1, true⟩ else if g + 1 < c.code.length then ⟨c.code, g + 1, 0, true⟩ else ⟨c.code, g, k, false⟩ }).assign } s.lnk)) ∧
     (∀ l : Fin 10, s.lines.answer.getLsbD l.val = false → s.blx.ringers[r].lines.getLsbD l.val = true →
       (∀ r' : Fin 3, s.blx.ringers[r'].lines.getLsbD l.val = true → r' = r) → c.wantAnswer = false ∨ c.guard = true →
       exec (.answerInput l) s = .next
         (s.holdingIn { s.toEnv with lines := { s.lines with answer := adjoin s.lines.answer l.val } } s.toStore s.lnk))) ∧
  (∀ (r : Fin 3) (s : State), s.fzu.fire = true →
     (s.blx.ringers[r].held = some .alert → s.blx.ringers[r].state = .striking →
       (∃ t, exec (.roundComplete r) s = .next t ∧ s.SameSettings t ∧
         t.blx = (s.blx.setRinger r { s.blx.ringers[r] with state := .pausing, stroke := ⟨[], 0, 0, false⟩, timer := some (s.tmb.ownTime + s.blx.gap * 100) }).assign) ∧
       (s.blx.ringers[r].stroke.on = true →
         ∃ t, exec (.strokeTimeEnd r) s = .next t ∧ s.SameSettings t ∧
           t.blx = (s.blx.setRinger r { s.blx.ringers[r] with stroke := { s.blx.ringers[r].stroke with on := false } }).assign) ∧
       (∀ code g k, s.blx.ringers[r].stroke = ⟨code, g, k, false⟩ →
         ∃ t, exec (.strokeTimeEnd r) s = .next t ∧ s.SameSettings t ∧
           t.blx = (s.blx.setRinger r { s.blx.ringers[r] with stroke := if k + 1 < code.getD g 0 then ⟨code, g, k + 1, true⟩ else if g + 1 < code.length then ⟨code, g + 1, 0, true⟩ else ⟨code, g, k, false⟩ }).assign)) ∧
     (s.blx.ringers[r].held = some .alert → s.blx.ringers[r].state = .pausing →
       ∃ t, exec (.repeatGapEnd r) s = .next t ∧ s.SameSettings t ∧
         t.blx = (s.blx.setRinger r { s.blx.ringers[r] with state := .striking, stroke := ⟨s.fzu.alertCode, 0, 0, true⟩, timer := none }).assign) ∧
     (s.blx.ringers[r].held = some .evac → s.blx.ringers[r].state = .striking →
       (∃ t, exec (.strokeTimeEnd r) s = .next t ∧ s.SameSettings t ∧
         t.blx = (s.blx.setRinger r { s.blx.ringers[r] with stroke := { s.blx.ringers[r].stroke with on := !s.blx.ringers[r].stroke.on } }).assign) ∧
       (∃ t, exec (.roundComplete r) s = .next t ∧ s.SameSettings t ∧ t.blx = s.blx.assign)) ∧
     (∀ l : Fin 10, s.blx.ringers[r].held = some .alert ∨ s.blx.ringers[r].held = some .evac →
       s.lines.answer.getLsbD l.val = false → s.blx.ringers[r].lines.getLsbD l.val = true →
       (∀ r' : Fin 3, s.blx.ringers[r'].lines.getLsbD l.val = true → r' = r) →
       ∃ t, exec (.answerInput l) s = .next t ∧ s.SameSettings t ∧ t.blx = s.blx.assign ∧
         t.lines = { s.lines with answer := adjoin s.lines.answer l.val }))

/-- R119, R120: CALL-CANCEL ends a queued or held call as CANCELLED, and is refused with RANGE when no call has the
number. That the final answer precedes the notice is the model's choice (log 4). -/
def Obligations.CancelEndsCalls : Prop :=
  ∀ (h : OrderHead) (body : List Byte) (c : Call) (s : State), s.Ready → body.length = 1 →
    (c ∈ s.blx.queue → c.number = Body.byte body 0 → (∀ x ∈ s.blx.queue, x.number = c.number → x = c) →
      s.toStore.Calm →
      exec (.callCancel h body) s = .next (s.holding
        { s.toStore with blx := { s.blx with queue := s.blx.queue.filter fun x => x.number != c.number }.assign }
        ((s.lnk.answered h 0x42 .done .none []).takeAll
          [.notice (.callEnd c .cancelled none .none), .ended (.call c.number) .ended .cancelled []]))) ∧
    (∀ r : Fin 3, s.blx.ringers[r].held = some (.ordinary c) → c.number = Body.byte body 0 →
      (∀ x ∈ s.blx.queue, x.number ≠ c.number) →
      (∀ (r' : Fin 3) (x : Call), s.blx.ringers[r'].held = some (.ordinary x) → x.number = c.number → r' = r) →
      s.toStore.Calm →
      exec (.callCancel h body) s = .next (s.holding { s.toStore with blx := (s.blx.setRinger r .idle).assign }
        ((s.lnk.answered h 0x42 .done .none []).takeAll
          [.notice (.callEnd c .cancelled none .none), .ended (.call c.number) .ended .cancelled []]))) ∧
    ((∀ x ∈ s.blx.calls, x.number ≠ Body.byte body 0) →
      exec (.callCancel h body) s = .next (s.answered h 0x42 .refused .range []))

/-! ## The Phrase Store (07) -/

/-- R130, R131: PHRASE-DECLARE is refused by the first of its checks that fails; accepted, it gives its slot a length
and a check, empties it and, on a change of length, every higher slot; the block storage stays. -/
def Obligations.DeclaredPhrases : Prop :=
  (∀ (h : OrderHead) (body : List Byte) (s : State), s.Ready →
     (body.length ≠ 5 → exec (.phraseDeclare h body) s = .next (s.answered h 0x50 .refused .form [])) ∧
     (body.length = 5 → Body.fin 64 body 0 = none →
       exec (.phraseDeclare h body) s = .next (s.answered h 0x50 .refused .range []))) ∧
  ∀ (h : OrderHead) (body : List Byte) (k : Fin 64) (s : State), s.Ready → body.length = 5 →
    Body.fin 64 body 0 = some k →
    (Body.word body 1 ≤ 2048 → s.phs.totalWith k (Body.word body 1) ≤ 8192 → (∀ j, s.anp.sounding = some j → j < k) →
      ∃ p : Phs, exec (.phraseDeclare h body) s = .next (s.holdingIn { s.toEnv with phs := p } s.toStore
          (s.lnk.answered h 0x50 .done .none (Enc.byte p.slots[k].state.code ++ Enc.word (p.start k.val) ++
            Enc.word p.free ++ Enc.set64 (s.phs.invalidated k (Body.word body 1))))) ∧
        p.storage = s.phs.storage ∧
        (p.slots[k] = ⟨Body.word body 1, if Body.word body 1 = 0 then 0 else BitVec.ofNat 16 (Body.word body 3), [], none⟩) ∧
        ∀ j : Fin 64, j ≠ k → p.slots[j] =
          if k < j ∧ Body.word body 1 ≠ s.phs.slots[k].length ∧ s.phs.slots[j].length ≠ 0 then
            { s.phs.slots[j] with loaded := [], computed := none } else s.phs.slots[j]) ∧
    (2048 < Body.word body 1 → exec (.phraseDeclare h body) s = .next (s.answered h 0x50 .refused .range [])) ∧
    (Body.word body 1 ≤ 2048 → 8192 < s.phs.totalWith k (Body.word body 1) →
      exec (.phraseDeclare h body) s = .next (s.answered h 0x50 .refused .full [])) ∧
    (∀ j, Body.word body 1 ≤ 2048 → s.phs.totalWith k (Body.word body 1) ≤ 8192 → s.anp.sounding = some j → k ≤ j →
      exec (.phraseDeclare h body) s = .next (s.answered h 0x50 .refused .busy []))

/-- R132: PHRASE-LOAD is refused by the first of its checks that fails. R128, R132, R133, R136: accepted, it stores the
128 bytes of its block and no other byte; the block that completes a slot makes the completion check, with N-PHRASE. -/
def Obligations.LoadedBlocksReadBack : Prop :=
  (∀ (h : OrderHead) (body : List Byte) (s : State), s.Ready →
     (body.length ≠ 131 → exec (.phraseLoad h body) s = .next (s.answered h 0x51 .refused .form [])) ∧
     (body.length = 131 → Body.fin 64 body 0 = none →
       exec (.phraseLoad h body) s = .next (s.answered h 0x51 .refused .range []))) ∧
  (∀ (h : OrderHead) (body : List Byte) (k : Fin 64) (s : State), s.Ready → body.length = 131 →
     Body.fin 64 body 0 = some k →
     (s.phs.slots[k].length = 0 → exec (.phraseLoad h body) s = .next (s.answered h 0x51 .refused .state [])) ∧
     (0 < s.phs.slots[k].length → s.phs.slots[k].length ≤ Body.word body 1 →
       exec (.phraseLoad h body) s = .next (s.answered h 0x51 .refused .range [])) ∧
     (Body.word body 1 < s.phs.slots[k].length → s.anp.sounding = some k →
       exec (.phraseLoad h body) s = .next (s.answered h 0x51 .refused .busy []))) ∧
  ∀ (h : OrderHead) (body : List Byte) (k : Fin 64) (s : State), s.Ready → s.PhrasesFit → body.length = 131 →
    Body.fin 64 body 0 = some k → Body.word body 1 < s.phs.slots[k].length → s.anp.sounding ≠ some k →
    ∃ p : Phs, exec (.phraseLoad h body) s = .next (s.holdingIn { s.toEnv with phs := p } s.toStore
        ((s.lnk.answered h 0x51 .done .none
          (Enc.byte p.slots[k].state.code ++ Enc.word p.slots[k].loaded.length)).takeAll
          (if p.slots[k].length ≤ p.slots[k].loaded.length then
            [.notice (.phrase k p.slots[k].state p.slots[k].length p.slots[k].check (p.slots[k].computed.getD 0))]
          else []))) ∧
      p.block k (Body.word body 1) = body.drop 3 ∧
      (∀ a, a < (s.phs.start k.val + Body.word body 1) * 128 ∨ (s.phs.start k.val + Body.word body 1) * 128 + 128 ≤ a →
        Memory.read p.storage a = Memory.read s.phs.storage a) ∧
      (∀ j : Fin 64, j ≠ k → p.slots[j] = s.phs.slots[j]) ∧
      p.slots[k].length = s.phs.slots[k].length ∧ p.slots[k].check = s.phs.slots[k].check ∧
      (∀ i, i ∈ p.slots[k].loaded ↔ i ∈ s.phs.slots[k].loaded ∨ i = Body.word body 1) ∧
      p.slots[k].computed =
        (if p.slots[k].length ≤ p.slots[k].loaded.length then some (crc16 (p.phrase k)) else s.phs.slots[k].computed)

/-! ## Announcements (08) -/

/-- R139: SCRIPT-SET loads one script slot, and is refused with BUSY for the script that plays and for the fire script of a
fire playback. R140-R142: ANNOUNCE joins the queue at the tail of its class with a free number, or is refused by the first
of its checks that fails; an idle player takes it at once and prepares for 250 ms.
The layout of the answer, where R184 tables none, is the model's reading (log 3), and the stage at which the cursor
starts, for a script without a chime too, is its choice (log 59). -/
def Obligations.ScriptsAndAnnouncements : Prop :=
  (∀ (h : OrderHead) (body : List Byte) (k : Fin 16) (s : State), s.Ready → 4 ≤ body.length →
     body.length = 4 + 3 * Body.byte body 3 → Body.fin 16 body 0 = some k → Body.isFlag body 1 = true →
     (Body.script body).valid = true →
     ((∀ a, s.anp.playing = some a → a.script ≠ k) → ¬ (s.anp.fire = true ∧ s.fzu.fireScript = some k) →
       exec (.scriptSet h body) s = .next (s.holding
         { s.toStore with anp := { s.anp with scripts := put s.anp.scripts k (Body.script body) } }
         (s.lnk.answered h 0x60 .done .none (Enc.script (Body.script body))))) ∧
     (∀ a, s.anp.playing = some a → a.script = k →
       exec (.scriptSet h body) s = .next (s.answered h 0x60 .refused .busy [])) ∧
     (s.anp.fire = true → s.fzu.fireScript = some k →
       exec (.scriptSet h body) s = .next (s.answered h 0x60 .refused .busy []))) ∧
  (∀ (h : OrderHead) (body : List Byte) (s : State), s.Ready → s.MayHold h →
     (body.length ≠ 3 → exec (.announce h body) s = .next (s.answered h 0x62 .refused .form [])) ∧
     (body.length = 3 → 16 ≤ Body.byte body 0 ∨ 2 ≤ Body.byte body 1 →
       exec (.announce h body) s = .next (s.answered h 0x62 .refused .range [])) ∧
     (∀ (k : Fin 16) (cls : AnnClass) (x : Reason), body.length = 3 → Body.byte body 0 = k.val →
       Body.byte body 1 = cls.code → s.announceRefusal k cls (Body.set8 body 2) = some x →
       exec (.announce h body) s = .next (s.answered h 0x62 .refused x []))) ∧
  (∀ (h : OrderHead) (body : List Byte) (k : Fin 16) (cls : AnnClass) (sp : BitVec 8) (a : Announcement) (s : State),
     s.Ready → s.MayHold h → s.toStore.Calm → body.length = 3 → Body.byte body 0 = k.val →
     Body.byte body 1 = cls.code → s.announceRefusal k cls (Body.set8 body 2) = none →
     sp = (if Body.set8 body 2 = 0 then s.anp.scripts[k].speakers else Body.set8 body 2) →
     a = ⟨freeNumber ((s.anp.queue ++ s.anp.playing.toList).map Announcement.number) 255 s.anp.next, k, sp, cls, .host, h.held⟩ →
     (s.anp.state ≠ .idle →
       exec (.announce h body) s = .next (s.holding
         { s.toStore with anp := { s.anp with
           queue := s.anp.queue.filter (fun x => x.cls.code ≤ cls.code) ++ a :: s.anp.queue.filter (fun x => cls.code < x.cls.code)
           next := nextNumber a.number } }
         (s.lnk.began h 0x62 (.announcement a.number) (Enc.byte a.number)))) ∧
     (s.anp.state = .idle → s.anp.fire = false →
       exec (.announce h body) s = .next (s.holding
         { s.toStore with anp := { s.anp with
           queue := [], playing := some a, state := .preparing, script := s.anp.scripts[k], cursor := ⟨false, 0, 0, 0⟩
           skip := ⟨0, false⟩, timer := some (s.tmb.ownTime + 25), next := nextNumber a.number } }
         (s.lnk.began h 0x62 (.announcement a.number) (Enc.byte a.number)))) ∧
     (1 ≤ s.anp.next → s.anp.next ≤ 255 → 1 ≤ a.number ∧ a.number ≤ 255 ∧
       ∀ x ∈ s.anp.queue ++ s.anp.playing.toList, x.number ≠ a.number))

/-- R144, R145: ANNOUNCE-CANCEL ends a waiting announcement, marks a sounding one to be cut at the block boundary, and
ends one that prepares or pauses. What the skip record and the cursor hold in IDLE is the model's reading (logs 27,
33); that the final answer precedes the notice is its choice (log 4), and so is the empty skip record of the notice of a
waiting announcement (log 57). -/
def Obligations.CancelEndsAnnouncements : Prop :=
  ∀ (h : OrderHead) (body : List Byte) (a : Announcement) (s : State), s.Ready → body.length = 1 → s.toStore.Calm →
    a.number = Body.byte body 0 →
    (a ∈ s.anp.queue → (∀ x ∈ s.anp.queue, x.number = a.number → x = a) → s.anp.state ≠ .idle →
      exec (.announceCancel h body) s = .next (s.holding
        { s.toStore with anp := { s.anp with queue := s.anp.queue.filter fun x => x.number != a.number } }
        ((s.lnk.answered h 0x63 .done .none []).takeAll
          [.notice (.announceEnd a .cancelled .cancel .none), .ended (.announcement a.number) .ended .cancelled []]))) ∧
    (s.anp.playing = some a → (∀ x ∈ s.anp.queue, x.number ≠ a.number) → s.anp.state = .sounding →
      exec (.announceCancel h body) s = .next (s.holding { s.toStore with anp := { s.anp with pendingCut := true } }
        (s.lnk.answered h 0x63 .done .none []))) ∧
    (s.anp.playing = some a → s.anp.queue = [] → s.anp.state = .preparing ∨ s.anp.state = .gap →
      exec (.announceCancel h body) s = .next (s.holding { s.toStore with anp := s.anp.silent }
        ((s.lnk.answered h 0x63 .done .none []).takeAll
          [.notice (.announceEnd a .cut .cancel s.anp.skip), .ended (.announcement a.number) .ended .cut []]))) ∧
    ((∀ x ∈ s.anp.queue ++ s.anp.playing.toList, x.number ≠ a.number) →
      exec (.announceCancel h body) s = .next (s.answered h 0x63 .refused .range []))

/-- R142, R143, R145: PREPARING gives way to the chime or the first READY item, a chime that is not READY being left out
and noted; a block boundary goes on to the next block, the item's gap, or the cut; the gap's end gives the next repeat.
R143: the end of the chime, of an item's phrase with a gap of 0 and of a gap go on, as the preparing does, to the next
repeat or the next item that is READY, those passed over being noted, or past the last item, where the announcement is
PLAYED (R144). What the skip record and the cursor hold in a gap and in IDLE is the model's reading (logs 27, 33), and the
order of the frames of an event its choice (log 4). -/
def Obligations.ScriptsSound : Prop :=
  ∀ (a : Announcement) (s : State), s.toStore.Calm → s.anp.fire = false → s.anp.playing = some a →
    (s.anp.state = .preparing → s.anp.script.chime = true → s.phs.ready 0 = true →
      exec .preparingEnd s = .next (s.holding
        { s.toStore with anp := { s.anp with state := .sounding, cursor := ⟨false, 0, 0, 0⟩, sounding := some 0, timer := none, firePause := false } }
        s.lnk)) ∧
    (∀ (it : Item) (rest : List Item), s.anp.state = .preparing → s.anp.script.chime = false →
      s.anp.script.items = it :: rest → 0 < it.repeats → s.phs.ready (slotOf it.slot) = true →
      exec .preparingEnd s = .next (s.holding
        { s.toStore with anp := { s.anp with state := .sounding, cursor := ⟨true, 0, 0, 0⟩, sounding := some (slotOf it.slot), timer := none, firePause := false } }
        s.lnk)) ∧
    (∀ k, s.anp.state = .sounding → s.anp.sounding = some k → s.anp.pendingCut = false →
      s.anp.cursor.block + 1 < s.phs.slots[k].length →
      exec .blockBoundary s = .next (s.holding
        { s.toStore with anp := { s.anp with cursor := { s.anp.cursor with block := s.anp.cursor.block + 1 } } } s.lnk)) ∧
    (∀ (k : Fin 64) (it : Item), s.anp.state = .sounding → s.anp.sounding = some k → s.anp.pendingCut = false →
      s.phs.slots[k].length ≤ s.anp.cursor.block + 1 → s.anp.cursor.onItem = true →
      s.anp.script.items[s.anp.cursor.item]? = some it → 0 < it.gap →
      exec .blockBoundary s = .next (s.holding
        { s.toStore with anp := { s.anp with state := .gap, sounding := none, cursor := { s.anp.cursor with block := 0 }, timer := some (s.tmb.ownTime + it.gap), firePause := false } }
        s.lnk)) ∧
    (∀ k, s.anp.state = .sounding → s.anp.sounding = some k → s.anp.pendingCut = true → s.anp.queue = [] →
      exec .blockBoundary s = .next (s.holding { s.toStore with anp := s.anp.silent }
        (s.lnk.takeAll [.notice (.announceEnd a .cut .cancel s.anp.skip), .ended (.announcement a.number) .ended .cut []]))) ∧
    (∀ it : Item, s.anp.state = .gap → s.anp.firePause = false → s.anp.script.items[s.anp.cursor.item]? = some it →
      s.anp.cursor.rep + 1 < it.repeats → s.phs.ready (slotOf it.slot) = true →
      exec .gapEnd s = .next (s.holding
        { s.toStore with anp := { s.anp with state := .sounding, cursor := ⟨true, s.anp.cursor.item, s.anp.cursor.rep + 1, 0⟩, sounding := some (slotOf it.slot), timer := none, firePause := false } }
        s.lnk)) ∧
    (s.anp.state = .gap → s.anp.firePause = false → s.anp.script.items.length = s.anp.cursor.item + 1 →
      (∀ it, s.anp.script.items[s.anp.cursor.item]? = some it → it.repeats ≤ s.anp.cursor.rep + 1) → s.anp.queue = [] →
      exec .gapEnd s = .next (s.holding { s.toStore with anp := s.anp.silent }
        (s.lnk.takeAll [.notice (.announceEnd a .played .none s.anp.skip),
          .ended (.announcement a.number) .done .none (Enc.skip s.anp.skip)]))) ∧
    (∀ (c : Instr) (i rep j : Nat) (it : Item) (sk : Skip), s.GoesOn c i rep sk → i ≤ j →
      (∀ m, i ≤ m → m < j → s.PassesOver i rep m) → s.anp.script.items[j]? = some it →
      (if j = i then rep else 0) < it.repeats → s.phs.ready (slotOf it.slot) = true →
      exec c s = .next (s.holding
        { s.toStore with anp := { s.anp with state := .sounding, cursor := ⟨true, j, if j = i then rep else 0, 0⟩, skip := s.skipping i rep j sk, sounding := some (slotOf it.slot), timer := none, firePause := false } }
        s.lnk)) ∧
    (∀ (c : Instr) (i rep : Nat) (sk sk' : Skip), s.GoesOn c i rep sk → s.anp.queue = [] →
      (∀ m, i ≤ m → m < s.anp.script.items.length → s.PassesOver i rep m) →
      sk' = s.skipping i rep s.anp.script.items.length sk →
      exec c s = .next (s.holding { s.toStore with anp := { s.anp.silent with skip := sk' } }
        (s.lnk.takeAll [.notice (.announceEnd a .played .none sk'),
          .ended (.announcement a.number) .done .none (Enc.skip sk')])))

/-- R143, R147, R148: fire playback repeats its round after the fire pause; without a fire script it sounds the chime
alone; at the block boundary after its cut the player falls silent. What the skip record and the cursor hold in IDLE is
the model's reading (logs 27, 33). -/
def Obligations.FirePlaybackRounds : Prop :=
  ∀ s : State, s.anp.fire = true → s.cpu.run = none →
    (s.anp.state = .gap → s.anp.firePause = true → s.fzu.fireScript = none → s.phs.ready 0 = true →
      ∃ t, exec .firePauseEnd s = .next t ∧ t.anp = { s.anp with
        state := .sounding, cursor := ⟨false, 0, 0, 0⟩, sounding := some 0, timer := none, firePause := false, skip := ⟨0, false⟩
        script := ⟨[], true, 0xFF⟩ } ∧ t.out.spk = 0xFF ∧ s.SameSettings t) ∧
    (∀ k, s.anp.state = .gap → s.anp.firePause = true → s.fzu.fireScript = some k → s.anp.scripts[k].items ≠ [] →
      s.anp.scripts[k].chime = true → s.phs.ready 0 = true →
      ∃ t, exec .firePauseEnd s = .next t ∧ t.anp = { s.anp with
        state := .sounding, cursor := ⟨false, 0, 0, 0⟩, sounding := some 0, timer := none, firePause := false, skip := ⟨0, false⟩
        script := s.anp.scripts[k] } ∧ t.out.spk = 0xFF ∧ s.SameSettings t) ∧
    (∀ k, s.anp.state = .sounding → s.anp.sounding = some k → s.anp.pendingCut = false →
      s.phs.slots[k].length ≤ s.anp.cursor.block + 1 → s.anp.cursor.onItem = false → s.anp.script.items = [] →
      ∃ t, exec .blockBoundary s = .next t ∧ t.anp.state = .gap ∧ t.anp.firePause = true ∧
        t.anp.timer = some (s.tmb.ownTime + s.fzu.fireRepeat * 100) ∧ t.anp.sounding = none ∧ s.SameSettings t) ∧
    (∀ k, s.anp.state = .sounding → s.anp.sounding = some k → s.anp.pendingCut = true → s.anp.queue = [] →
      ∃ t, exec .blockBoundary s = .next t ∧ t.anp = s.anp.silent ∧ t.out.spk = 0 ∧ t.out.ampEn = false ∧
        s.SameSettings t)

/-! ## Calendar, hours and stamps (09) -/

/-- R153: each hundredth carries the calendar on; a valid time stays valid, one hundredth later, its weekday following
the date; 2099-12-31 wraps to 2000-01-01. R153, R155, R160, R165: the calendar's tick carries the Time Base on by one
hundredth; at midnight the past exceptions go and today's hours and the start instant follow. With no instant at hand
nothing else changes. That the rollover row is the tick that crosses midnight is the model's choice (log 10). -/
def Obligations.CalendarAndTicks : Prop :=
  (∀ c : CalTime, c.valid = true →
     c.tick.valid = true ∧
     (¬ (c.lastOfDay = true ∧ c.date = ⟨2099, 12, 31⟩) → c.tick.abs = c.abs + 1 ∧
       c.tick.date.weekday = (if c.lastOfDay = true then c.date.weekday % 7 + 1 else c.date.weekday)) ∧
     (c.lastOfDay = true → c.date = ⟨2099, 12, 31⟩ → c.tick = ⟨⟨2000, 1, 1⟩, 0, 0, 0, 0⟩)) ∧
  (∀ s : State,
     (∃ t, exec .calendarTick s = .next t ∧ t.lines = s.lines ∧ t.phs = s.phs ∧ t.tmb.cal = s.tmb.cal.tick ∧
       t.tmb.ownTime = s.tmb.ownTime + 1 ∧ t.tmb.weekly = s.tmb.weekly ∧
       t.tmb.exceptions = (if s.tmb.cal.lastOfDay = true then
         s.tmb.exceptions.filter (fun x => !x.date.before s.tmb.cal.tick.date) else s.tmb.exceptions) ∧
       t.tmb.today = (if s.tmb.cal.lastOfDay = true then t.tmb.todaysHours else s.tmb.today) ∧
       t.tmb.timeUnset = (s.tmb.timeUnset || (s.tmb.cal.lastOfDay && s.tmb.cal.date == (⟨2099, 12, 31⟩ : Date)))) ∧
     (openingNext s = false → startNext s = false → stepNext s = false →
       exec .calendarTick s = .next { s with
         tmb := s.tmb.tick
         cpu := { s.cpu with start := if s.tmb.cal.lastOfDay = true then startInstant s.tmb.tick s.cpu.programme else s.cpu.start } }) ∧
     (s.tmb.cal.lastOfDay = true → exec .midnightRollover s = exec .calendarTick s) ∧
     (s.tmb.cal.lastOfDay = false → exec .midnightRollover s = .next s))

/-- R154, R155, R160, R165: TIME-SET writes the calendar, clears TIME_UNSET and renews today's hours and the start
instant; an invalid time is refused with RANGE. R11, R13, R155, R165: one that goes forward within its date past the
opening time joins it to the wake latch and wakes the store from NIGHT, and one that goes past the start instant starts a
run; one taken with TIME_UNSET set, to another date, backward, or short of the instants acts on none. That an opening time
and a start instant reached in one event are taken in the order of time, with the due steps, is the model's reading
(log 11). -/
def Obligations.TimeIsSet : Prop :=
  ∀ (h : OrderHead) (body : List Byte) (s : State), s.Ready → body.length = 8 →
    (∀ c, Body.calTime body 0 = some c →
      ∃ t, exec (.timeSet h body) s = .next t ∧ t.tmb.cal = c ∧ t.tmb.timeUnset = false ∧
        t.tmb.today = t.tmb.todaysHours ∧ t.tmb.weekly = s.tmb.weekly ∧ t.tmb.ownTime = s.tmb.ownTime ∧
        t.tmb.exceptions = (if c.date = s.tmb.cal.date then s.tmb.exceptions
          else s.tmb.exceptions.filter fun x => !x.date.before c.date) ∧
        t.cpu.start = startInstant t.tmb s.cpu.programme ∧ t.lines = s.lines ∧ t.phs = s.phs ∧
        s.Answers t h 0x70 .done .none (Enc.calTime c ++ Enc.byte c.date.weekday)) ∧
    (∀ c, Body.calTime body 0 = some c →
      (∀ r st, s.cpu.run = some r → s.cpu.programme[r.cursor]? = some st → c.abs < r.due st) → s.toStore.Calm →
      (s.tmb.timeUnset = true ∨ c.date ≠ s.tmb.cal.date ∨ c.abs ≤ s.tmb.cal.abs ∨
        ∀ x, (s.tmb.setTime c).opening = some x ∨ startInstant (s.tmb.setTime c) s.cpu.programme = some x →
          x ≤ s.tmb.cal.abs ∨ c.abs < x) →
      exec (.timeSet h body) s = .next (s.holdingIn { s.toEnv with tmb := s.tmb.setTime c }
        { s.toStore with cpu := { s.cpu with start := startInstant (s.tmb.setTime c) s.cpu.programme } }
        (s.lnk.answered h 0x70 .done .none (Enc.calTime c ++ Enc.byte c.date.weekday)))) ∧
    (∀ c x, Body.calTime body 0 = some c → s.tmb.timeUnset = false → c.date = s.tmb.cal.date →
      (s.tmb.setTime c).opening = some x → s.tmb.cal.abs < x → x ≤ c.abs → s.toStore.Calm →
      (∀ y, startInstant (s.tmb.setTime c) s.cpu.programme = some y → y ≤ s.tmb.cal.abs ∨ c.abs < y) →
      (∀ r st, s.cpu.run = some r → s.cpu.programme[r.cursor]? = some st → c.abs < r.due st) →
      ∃ t, exec (.timeSet h body) s = .next t ∧ t.tmb = s.tmb.setTime c ∧ t.cpu.run = s.cpu.run ∧
        t.msu.mode = (if s.msu.mode = .night then .trading else s.msu.mode) ∧
        t.msu.wake = (if s.msu.mode = .night ∨ s.msu.mode = .closing then s.msu.wake ||| 2 else s.msu.wake)) ∧
    (∀ c x cl, Body.calTime body 0 = some c → s.tmb.timeUnset = false → c.date = s.tmb.cal.date →
      startInstant (s.tmb.setTime c) s.cpu.programme = some x → s.tmb.cal.abs < x → x ≤ c.abs →
      (s.tmb.setTime c).closing = some cl → s.msu.mode = .trading → s.cpu.run = none → s.toStore.Calm →
      s.pnc.state ≠ .nightLock →
      ∃ t run, exec (.timeSet h body) s = .next t ∧ t.tmb = s.tmb.setTime c ∧ t.msu.mode = .closing ∧
        t.msu.wake = (if (s.tmb.setTime c).opening.any (fun o => x < o && o ≤ c.abs) = true then 2 else 0) ∧
        t.cpu.run = some run ∧ run.startCause = .auto ∧ run.closing = cl ∧
        run.steps.length = s.cpu.programme.length ∧
        (∀ st, s.cpu.programme[run.cursor]? = some st → c.abs < run.due st)) ∧
    (Body.calTime body 0 = none → exec (.timeSet h body) s = .next (s.answered h 0x70 .refused .range []))

/-- R156, R157: the trim, the reference and the timebase fault flag. That the end of a trim period takes the trim off a
count held in the divider is the model's reading (log 13, deduced). -/
def Obligations.TrimAndReference : Prop :=
  ∀ (h : OrderHead) (s : State), s.Ready →
    (∀ body : List Byte, body.length = 1 → -63 ≤ Body.signed body 0 → Body.signed body 0 ≤ 63 →
      exec (.trimSet h body) s = .next (s.holdingIn
        { s.toEnv with tmb := { s.tmb with trim := Body.signed body 0 } } s.toStore
        (s.lnk.answered h 0x72 .done .none (Enc.trim (Body.signed body 0))))) ∧
    (∀ body : List Byte, body.length = 1 → Body.signed body 0 < -63 ∨ 63 < Body.signed body 0 →
      exec (.trimSet h body) s = .next (s.answered h 0x72 .refused .range [])) ∧
    (s.tmb.ref = .internal → exec (.timebaseClear h []) s = .next (s.answered h 0x73 .refused .fault [])) ∧
    (s.tmb.ref = .crystal → s.tmb.fault = true →
      exec (.timebaseClear h []) s = .next (s.holdingIn { s.toEnv with tmb := { s.tmb with fault := false } } s.toStore
        ((s.lnk.answered h 0x73 .done .none []).offer (.timebase .crystal false)))) ∧
    (s.tmb.ref = .crystal → s.tmb.fault = false →
      exec (.timebaseClear h []) s = .next (s.answered h 0x73 .done .none [])) ∧
    (s.lines.crystal = true → s.tmb.ref = .crystal →
      exec .crystalStop s = .next { s with
        lines := { s.lines with crystal := false }, tmb := { s.tmb with ref := .internal, fault := true }
        lnk := s.lnk.offer (.timebase .internal true) }) ∧
    (s.lines.crystal = false → s.tmb.ref = .internal →
      exec .crystalResume s = .next { s with
        lines := { s.lines with crystal := true }, tmb := { s.tmb with ref := .crystal }
        lnk := s.lnk.offer (.timebase .crystal s.tmb.fault) }) ∧
    exec .trimPeriodEnd s = .next { s with
      tmb := { s.tmb with divider := if s.tmb.ref = .crystal then s.tmb.divider - s.tmb.trim else s.tmb.divider } }

/-- R158-R160, R165: WEEK-SET, EXCEPTION-SET and EXCEPTION-REMOVE change the hours; today's hours and the start
instant follow in the same event. R160: today's hours are those of today's exception when there is one, else those of
the weekday. The layout of the answer, where R184 tables none, is the model's reading (log 3). -/
def Obligations.HoursOfTheDay : Prop :=
  (∀ (h : OrderHead) (body : List Byte) (s : State), s.Ready →
     (∀ (i : Fin 7) (x : Hours) (t : Tmb), body.length = 5 → Body.byte body 0 = i.val + 1 → Body.hours body 1 = some x →
       t = { s.tmb with weekly := put s.tmb.weekly i x } →
       exec (.weekSet h body) s = .next (s.holdingIn { s.toEnv with tmb := { t with today := t.todaysHours } }
         { s.toStore with cpu := { s.cpu with start := startInstant { t with today := t.todaysHours } s.cpu.programme } }
         (s.lnk.answered h 0x74 .done .none (Enc.hours x)))) ∧
     (∀ (d : Date) (x : Hours) (t : Tmb), body.length = 8 → Body.date body 0 = some d → Body.hours body 4 = some x →
       s.tmb.timeUnset = true ∨ d.before s.tmb.cal.date = false →
       (s.tmb.exceptionOn d).isSome = true ∨ s.tmb.exceptions.length < 24 →
       t = { s.tmb with exceptions := insertBy (fun y => (y.date.days : Int)) ⟨d, x⟩ (s.tmb.exceptions.filter fun y => y.date != d) } →
       exec (.exceptionSet h body) s = .next (s.holdingIn { s.toEnv with tmb := { t with today := t.todaysHours } }
         { s.toStore with cpu := { s.cpu with start := startInstant { t with today := t.todaysHours } s.cpu.programme } }
         (s.lnk.answered h 0x75 .done .none (Enc.byte t.exceptions.length)))) ∧
     (∀ (d : Date) (t : Tmb), body.length = 4 → Body.date body 0 = some d → (s.tmb.exceptionOn d).isSome = true →
       t = { s.tmb with exceptions := s.tmb.exceptions.filter fun y => y.date != d } →
       exec (.exceptionRemove h body) s = .next (s.holdingIn { s.toEnv with tmb := { t with today := t.todaysHours } }
         { s.toStore with cpu := { s.cpu with start := startInstant { t with today := t.todaysHours } s.cpu.programme } }
         (s.lnk.answered h 0x76 .done .none (Enc.byte t.exceptions.length)))) ∧
     (∀ d : Date, body.length = 4 → Body.date body 0 = some d → s.tmb.exceptionOn d = none →
       exec (.exceptionRemove h body) s = .next (s.answered h 0x76 .refused .range []))) ∧
  (∀ t : Tmb,
     (∀ x ∈ t.exceptions, x.date = t.cal.date → (∀ y ∈ t.exceptions, y.date = t.cal.date → y = x) →
       t.todaysHours = x.hours) ∧
     ((∀ x ∈ t.exceptions, x.date ≠ t.cal.date) → t.todaysHours = t.weekly[(t.cal.date.days + 5) % 7]'(Nat.mod_lt _ (by decide))))

/-- R161, R162: a stamp claim counts, and writes its slot when the slot was empty or keeps its last event; STAMP-CLEAR
empties a slot and answers what it held; STAMP-MODE changes its mode. The layout of the answer, where R184 tables
none, is the model's reading (log 3). -/
def Obligations.StampsAreClaimedAndCleared : Prop :=
  (∀ (x : Stamp) (cal : CalTime) (unset : Bool) (detail : Nat),
    (x.count ≤ 255 → (Ev.stampAfter x cal unset detail).2.count = min (x.count + 1) 255) ∧
    (Ev.stampAfter x cal unset detail).2.mode = x.mode ∧
    (x.count = 0 ∨ x.mode = .last → (Ev.stampAfter x cal unset detail).1 = true ∧
      (Ev.stampAfter x cal unset detail).2.time = some (cal, unset) ∧
      (Ev.stampAfter x cal unset detail).2.detail = detail) ∧
    (x.count ≠ 0 → x.mode = .first → (Ev.stampAfter x cal unset detail).1 = false ∧
      (Ev.stampAfter x cal unset detail).2.time = x.time ∧ (Ev.stampAfter x cal unset detail).2.detail = x.detail)) ∧
  ∀ (h : OrderHead) (body : List Byte) (k : Fin 5) (s : State), s.Ready → Body.fin 5 body 0 = some k →
    (body.length = 1 →
      exec (.stampClear h body) s = .next (s.holding
        { s.toStore with stamps := put s.stamps k ⟨s.stamps[k].mode, 0, none, 0⟩ }
        (s.lnk.answered h 0x79 .done .none (Enc.stamp s.stamps[k])))) ∧
    (∀ m, body.length = 2 → Body.stampMode body 1 = some m →
      exec (.stampMode h body) s = .next (s.holding
        { s.toStore with stamps := put s.stamps k { s.stamps[k] with mode := m } }
        (s.lnk.answered h 0x7A .done .none (Enc.stamp { s.stamps[k] with mode := m }))))

/-! ## The closing programme (10) -/

/-- R164, R165: PROGRAMME-SET loads its steps in the order of their offsets, with the start instant that follows, and an
empty list too; it is refused with RANGE for a list that is not empty and has not exactly one NIGHT step, at the end, and
with BUSY during a run. The layouts of the body and the answer, where R184 tables none, are the model's reading (logs 3,
48). -/
def Obligations.ProgrammeIsLoaded : Prop :=
  ∀ (h : OrderHead) (body : List Byte) (steps : List Step) (s : State), s.Ready →
    Body.programme body = some (steps.map some) → steps.length ≤ 16 →
    (sortBy Step.offset steps).Perm steps ∧
    (sortBy Step.offset steps).Pairwise (fun x y => x.offset ≤ y.offset) ∧
    (nightRule (sortBy Step.offset steps) = true → s.cpu.run = none →
      exec (.programmeSet h body) s = .next (s.holding
        { s.toStore with cpu := { s.cpu with programme := sortBy Step.offset steps, start := startInstant s.tmb (sortBy Step.offset steps) } }
        (s.lnk.answered h 0x80 .done .none (Enc.byte steps.length)))) ∧
    (nightRule (sortBy Step.offset steps) = false →
      exec (.programmeSet h body) s = .next (s.answered h 0x80 .refused .range [])) ∧
    (nightRule (sortBy Step.offset steps) = true → s.cpu.run ≠ none →
      exec (.programmeSet h body) s = .next (s.answered h 0x80 .refused .busy []))

/-- R3, R166: CLOSING-BEGIN starts a run in TRADING, with the closing time it carries or the one that makes the first
step due at once. R5, R173: CLOSING-CANCEL ends the run, drops its open steps and returns the store to TRADING. The
closing time is held in hundredths (log 31). That a dropped GRILLES step has no results is the model's choice (log 60). -/
def Obligations.RunsBeginAndAreCancelled : Prop :=
  (∀ (h : OrderHead) (body : List Byte) (s : State), s.Ready → body.length = 2 →
     Body.word body 0 ≤ 1439 ∨ Body.word body 0 = 0xFFFF →
     (s.msu.mode ≠ .trading → exec (.closingBegin h body) s = .next (s.answered h 0x82 .refused .mode [])) ∧
     (s.msu.mode = .trading → s.tmb.timeUnset = true →
       exec (.closingBegin h body) s = .next (s.answered h 0x82 .refused .timeUnset [])) ∧
     (s.msu.mode = .trading → s.tmb.timeUnset = false → s.cpu.programme = [] →
       exec (.closingBegin h body) s = .next (s.answered h 0x82 .refused .state [])) ∧
     (∀ (first : Step) (rest : List Step) (c : Int), s.msu.mode = .trading → s.tmb.timeUnset = false →
       s.cpu.programme = first :: rest → s.toStore.Calm → s.pnc.state ≠ .nightLock →
       c = (if Body.word body 0 = 0xFFFF then s.tmb.cal.abs - first.offset * 6000
         else instantOf s.tmb.cal.date (Body.word body 0)) →
       ∃ t run, exec (.closingBegin h body) s = .next t ∧ t.msu.mode = .closing ∧ t.msu.wake = 0 ∧
         t.cpu.run = some run ∧ run.startCause = .order ∧ run.closing = c ∧
         run.steps.length = s.cpu.programme.length ∧ s.SameSettings t ∧ s.Answers t h 0x82 .done .none (Enc.instant c))) ∧
  (∀ (h : OrderHead) (s : State), s.Ready →
     (s.cpu.run = none → exec (.closingCancel h []) s = .next (s.answered h 0x83 .refused .state [])) ∧
     (∀ r, s.cpu.run = some r →
       ∃ t r', exec (.closingCancel h []) s = .next t ∧ t.msu.mode = .trading ∧ t.msu.wake = s.msu.wake ∧
         t.cpu.run = none ∧ t.cpu.prev = some (r', .cancel) ∧ r'.startCause = r.startCause ∧ r'.closing = r.closing ∧
         (∀ (i : Nat) (st : Step) (x : StepRecord), s.cpu.programme[i]? = some st → r.steps[i]? = some x →
           r'.steps[i]? = some
             (if x.outcome = .pending ∨ x.outcome = .deferred ∨ x.outcome = .waiting then ⟨.dropped, .none, []⟩ else x)) ∧
         s.SameSettings t ∧ s.Answers t h 0x83 .done .none []))

/-- R11, R13, R155, R165: the opening time joins the wake latch, and in NIGHT wakes the store; the start instant
starts a run in TRADING. R167, R172: the due instant of a NIGHT step takes it, and it waits while the chain is not in
NIGHT_LOCK. A row whose instant is not at hand does nothing. That the row of an instant is the tick that reaches it is
the model's choice (log 10). -/
def Obligations.InstantsAreReached : Prop :=
  ∀ s : State,
    (openingNext s = true → startNext s = false → stepNext s = false → s.toStore.Calm →
      ∃ t, exec .openingTimeEvent s = .next t ∧ t.tmb = s.tmb.tick ∧
        t.msu.mode = (if s.msu.mode = .night then .trading else s.msu.mode) ∧
        t.msu.wake = (if s.msu.mode = .night ∨ s.msu.mode = .closing then s.msu.wake ||| 2 else s.msu.wake)) ∧
    (∀ c, startNext s = true → openingNext s = false → s.tmb.tick.closing = some c → s.msu.mode = .trading →
      s.toStore.Calm → s.pnc.state ≠ .nightLock →
      ∃ t run, exec .startInstantReached s = .next t ∧ t.tmb = s.tmb.tick ∧ t.msu.mode = .closing ∧ t.msu.wake = 0 ∧
        t.cpu.run = some run ∧ run.startCause = .auto ∧ run.closing = c ∧
        run.steps.length = s.cpu.programme.length) ∧
    (∀ (r : Run) (st : Step), s.cpu.run = some r → s.cpu.programme[r.cursor]? = some st → stepNext s = true →
      openingNext s = false → startNext s = false →
      (∀ st', s.cpu.programme[r.cursor + 1]? = some st' → s.tmb.tick.cal.abs < r.due st') → st.action = .night →
      s.toStore.Calm → s.pnc.state ≠ .nightLock →
      ∃ t, exec .stepDueInstant s = .next t ∧ t.tmb = s.tmb.tick ∧ t.msu = s.msu ∧
        t.cpu.run = some { r with cursor := r.cursor + 1, steps := r.steps.set r.cursor ⟨.waiting, .none, []⟩ }) ∧
    (openingNext s = false → exec .openingTimeEvent s = .next s) ∧
    (startNext s = false → exec .startInstantReached s = .next s) ∧
    (stepNext s = false → exec .stepDueInstant s = .next s)

/-- R167-R170, R172: the step at the cursor is taken at its due instant by its action: an ANNOUNCE or BELL step is posted,
DONE or FAILED with the reason of the refusal; a SWEEP step is claimed, a GRILLES step closes the grilles of its set, a
NIGHT step waits for its conditions or brings the night. Under fire a warning is DROPPED, a SWEEP or GRILLES step
DEFERRED. R168: a warning more than two minutes past its due instant is LATE. R171: once the fire is over and the chain at
rest a DEFERRED step is taken again by its own rule; no step leaves one DEFERRED then. That the row is the tick that
reaches the instant is the model's choice (log 10), and the mark of a claimed sweep is its own (log 26); that a grille is
driven down where its closed limit is already active is its reading (log 20), and so are the marks of a waiting fire raise,
which the end of the fire clears before a DEFERRED GRILLES step is taken (log 21). That a DEFERRED GRILLES step has no
results, and the stage at which the cursor of an announcement starts, are its choices (logs 59, 60). -/
def Obligations.DueStepsAreTaken : Prop :=
  (∀ (r : Run) (i : Nat) (st : Step) (s : State), s.cpu.run = some r → r.cursor = i → s.cpu.programme[i]? = some st →
     stepNext s = true → openingNext s = false → startNext s = false →
     (∀ st', s.cpu.programme[i + 1]? = some st' → s.tmb.tick.cal.abs < r.due st') →
     (st.action = .night → s.toStore.Calm → s.pnc.state ≠ .nightLock →
       ∃ t, exec .stepDueInstant s = .next t ∧ t.tmb = s.tmb.tick ∧ t.msu = s.msu ∧
         t.cpu.run = some { r with cursor := i + 1, steps := r.steps.set i ⟨.waiting, .none, []⟩ }) ∧
     (st.action = .night → s.toStore.Calm → s.pnc.state = .nightLock → s.nightClosed = true →
       s.cpu.outstanding = false → i < r.steps.length →
       ∃ t, exec .stepDueInstant s = .next t ∧ t.tmb = s.tmb.tick ∧
         t.msu.mode = (if s.msu.wake = 0 then .night else .trading) ∧ t.cpu.run = none ∧
         t.cpu.prev = some ({ r with cursor := i + 1, steps := r.steps.set i ⟨.done, .none, []⟩ }, .nightStep)) ∧
     (st.action = .sweep → s.toStore.Calm → s.pnc.state = .nightLock → s.msu.mode = .closing →
       ∃ t, exec .stepDueInstant s = .next t ∧ t.tmb = s.tmb.tick ∧ t.pnc = s.pnc ∧
         t.cpu.run = some { r with cursor := i + 1, steps := r.steps.set i ⟨.done, .none, []⟩ }) ∧
     (st.action = .sweep → s.toStore.Calm → s.pnc.state = .running → s.msu.mode = .closing → s.sweepRefusal = none →
       ∃ t, exec .stepDueInstant s = .next t ∧ t.tmb = s.tmb.tick ∧
         t.pnc = { s.pnc with state := .sweeping, purpose := .sweep, sweepCount := 0, sweepClaimed := true } ∧
         t.cpu.run = some { r with cursor := i + 1, steps := r.steps.set i ⟨.waiting, .none, []⟩ }) ∧
     (st.action = .sweep → s.toStore.Calm → s.pnc.state = .halted → s.msu.mode = .closing → s.sweepRefusal = none →
       ∃ t, exec .stepDueInstant s = .next t ∧ t.tmb = s.tmb.tick ∧
         t.pnc = { s.pnc with
           state := .starting, purpose := .sweep, sweepClaimed := true, startTimer := some (s.tmb.tick.ownTime + 300) } ∧
         t.cpu.run = some { r with cursor := i + 1, steps := r.steps.set i ⟨.waiting, .none, []⟩ }) ∧
     (∀ x, st.action = .sweep → s.toStore.Calm → s.pnc.state ≠ .nightLock → s.msu.mode = .closing →
       s.sweepRefusal = some x →
       ∃ t, exec .stepDueInstant s = .next t ∧ t.tmb = s.tmb.tick ∧ t.pnc = s.pnc ∧
         t.cpu.run = some { r with cursor := i + 1, steps := r.steps.set i ⟨.failed, x, []⟩ }) ∧
     (∀ set, st.action = .grilles set → s.toStore.Calm →
       ∃ t, exec .stepDueInstant s = .next t ∧ t.tmb = s.tmb.tick ∧
         t.cpu.run = some { r with cursor := i + 1, steps := r.steps.set i (s.grillesRecord set) } ∧
         ∀ j : Fin 16, t.shc.stations[j] = s.shc.stations[j].map (s.grilleTaken set s.tmb.tick.ownTime j)) ∧
     (∀ (k : Fin 16) (sp : BitVec 8) (x : Reason), st.action = .announce k sp → s.toStore.Calm → s.msu.mode = .closing →
       s.announceRefusal k .closing sp = some x →
       ∃ t, exec .stepDueInstant s = .next t ∧ t.tmb = s.tmb.tick ∧ t.anp = s.anp ∧
         t.cpu.run = some { r with cursor := i + 1, steps := r.steps.set i ⟨.failed, x, []⟩ }) ∧
     (∀ (k : Fin 16) (sp : BitVec 8) (a : Announcement), st.action = .announce k sp → s.toStore.Calm →
       s.msu.mode = .closing → s.announceRefusal k .closing sp = none →
       a = ⟨freeNumber ((s.anp.queue ++ s.anp.playing.toList).map Announcement.number) 255 s.anp.next, k, if sp = 0 then s.anp.scripts[k].speakers else sp, .closing, .programme, false⟩ →
       s.anp.state ≠ .idle ∨ s.anp.fire = true →
       ∃ t, exec .stepDueInstant s = .next t ∧ t.tmb = s.tmb.tick ∧
         t.cpu.run = some { r with cursor := i + 1, steps := r.steps.set i ⟨.done, .none, []⟩ } ∧
         t.anp = { s.anp with
           queue := s.anp.queue.filter (fun y => y.cls.code ≤ AnnClass.closing.code) ++ a :: s.anp.queue.filter (fun y => AnnClass.closing.code < y.cls.code)
           next := nextNumber a.number }) ∧
     (∀ (k : Fin 16) (sp : BitVec 8) (a : Announcement), st.action = .announce k sp → s.toStore.Calm →
       s.msu.mode = .closing → s.announceRefusal k .closing sp = none →
       a = ⟨freeNumber ((s.anp.queue ++ s.anp.playing.toList).map Announcement.number) 255 s.anp.next, k, if sp = 0 then s.anp.scripts[k].speakers else sp, .closing, .programme, false⟩ →
       s.anp.state = .idle → s.anp.fire = false →
       ∃ t, exec .stepDueInstant s = .next t ∧ t.tmb = s.tmb.tick ∧
         t.cpu.run = some { r with cursor := i + 1, steps := r.steps.set i ⟨.done, .none, []⟩ } ∧
         t.anp = { s.anp with
           queue := [], playing := some a, state := .preparing, script := s.anp.scripts[k], cursor := ⟨false, 0, 0, 0⟩
           skip := ⟨0, false⟩, timer := some (s.tmb.tick.ownTime + 25), next := nextNumber a.number }) ∧
     (∀ (code : BellCode) (lines : BitVec 10) (repeats : Nat) (p : Post), st.action = .bell code lines repeats →
       s.toStore.Calm → s.msu.mode = .closing →
       p = ⟨code, lines, .closing, repeats, false, false, .programme, false⟩ →
       (∀ x, s.callRefusal p = some x →
         ∃ t, exec .stepDueInstant s = .next t ∧ t.tmb = s.tmb.tick ∧ t.blx = s.blx ∧
           t.cpu.run = some { r with cursor := i + 1, steps := r.steps.set i ⟨.failed, x, []⟩ }) ∧
       (∀ n b, s.callRefusal p = none → s.blx.merge p = some (n, b) →
         ∃ t, exec .stepDueInstant s = .next t ∧ t.tmb = s.tmb.tick ∧ t.blx = b.assign ∧
           t.cpu.run = some { r with cursor := i + 1, steps := r.steps.set i ⟨.done, .none, []⟩ }) ∧
       (s.callRefusal p = none → s.blx.merge p = none →
         ∃ t, exec .stepDueInstant s = .next t ∧ t.tmb = s.tmb.tick ∧ t.blx = (s.blx.enrol p).2.assign ∧
           t.cpu.run = some { r with cursor := i + 1, steps := r.steps.set i ⟨.done, .none, []⟩ })) ∧
     (s.fzu.fire = true → s.pnc.sweepClaimed = false →
       ∃ t x, exec .stepDueInstant s = .next t ∧ t.tmb = s.tmb.tick ∧
         t.cpu.run = some { r with cursor := i + 1, steps := r.steps.set i ⟨x, .none, []⟩ } ∧
         x = (match st.action with
           | .announce _ _ | .bell _ _ _ => .dropped
           | .sweep | .grilles _ => .deferred
           | .night => .waiting))) ∧
  (∀ (h : OrderHead) (body : List Byte) (c : CalTime) (r : Run) (i : Nat) (st : Step) (s : State), s.Ready →
     body.length = 8 → Body.calTime body 0 = some c → s.cpu.run = some r → r.cursor = i →
     s.cpu.programme[i]? = some st → (∀ st', s.cpu.programme[i + 1]? = some st' → c.abs < r.due st') →
     s.msu.mode = .closing → s.toStore.Calm → 12000 < c.abs - r.due st →
     (match st.action with | .announce _ _ => True | .bell _ _ _ => True | _ => False) →
     ∃ t, exec (.timeSet h body) s = .next t ∧ t.tmb.cal = c ∧ t.blx = s.blx ∧ t.anp = s.anp ∧
       t.cpu.run = some { r with cursor := i + 1, steps := r.steps.set i ⟨.late, .none, []⟩ }) ∧
  (∀ (h : OrderHead) (body : List Byte) (z : Fin 6) (r : Run) (i : Nat) (st : Step) (s : State), s.Ready →
     s.FireFollowsZones → body.length = 1 → Body.fin 6 body 0 = some z → s.fzu.zones[z].state = .standing →
     (∀ x : Fin 6, x ≠ z → s.fzu.zones[x].state = .quiet) → s.msu.mode = .closing → s.cpu.run = some r →
     (s.cpu.stepsWhere fun _ o => o == .deferred) = [i] → s.cpu.programme[i]? = some st →
     (s.cpu.stepsWhere fun a o => a == .night && o == .waiting) = [] →
     (∀ (j : Fin 16) (sh : Shutter), s.shc.stations[j] = some sh → sh.state ≠ .releaseWait ∧ sh.retryWait = false) →
     (st.action = .sweep → s.pnc.state = .nightLock →
       ∃ t, exec (.zoneReset h body) s = .next t ∧ t.fzu.fire = false ∧ t.pnc = s.pnc ∧
         t.cpu.run = some { r with steps := r.steps.set i ⟨.done, .none, []⟩ }) ∧
     (st.action = .sweep → s.pnc.state = .estop →
       ∃ t, exec (.zoneReset h body) s = .next t ∧ t.fzu.fire = false ∧ t.pnc = s.pnc ∧
         t.cpu.run = some { r with steps := r.steps.set i ⟨.failed, .state, []⟩ }) ∧
     (st.action = .sweep → s.pnc.state = .held →
       { s with pnc := { s.pnc with state := .halted } }.sweepRefusal = none →
       ∃ t, exec (.zoneReset h body) s = .next t ∧ t.fzu.fire = false ∧ t.pnc.state = .starting ∧
         t.pnc.purpose = .sweep ∧ t.pnc.sweepClaimed = true ∧ t.pnc.startTimer = some (s.tmb.ownTime + 300) ∧
         t.cpu.run = some { r with steps := r.steps.set i ⟨.waiting, .none, []⟩ }) ∧
     (∀ x, st.action = .sweep → s.pnc.state = .held →
       { s with pnc := { s.pnc with state := .halted } }.sweepRefusal = some x →
       ∃ t, exec (.zoneReset h body) s = .next t ∧ t.fzu.fire = false ∧ t.pnc.state = .halted ∧
         t.cpu.run = some { r with steps := r.steps.set i ⟨.failed, x, []⟩ }) ∧
     (∀ set, st.action = .grilles set → s.pnc.state = .nightLock ∨ s.pnc.state = .estop ∨ s.pnc.state = .held →
       ∃ t, exec (.zoneReset h body) s = .next t ∧ t.fzu.fire = false ∧
         t.cpu.run = some { r with steps := r.steps.set i (s.grillesRecord set) } ∧
         ∀ j : Fin 16, t.shc.stations[j] = s.shc.stations[j].map fun sh =>
           s.grilleTaken set s.tmb.ownTime j { sh with fireWait := false, supplyWait := false })) ∧
  (∀ s t : State, s.DeferredHeld → step s = .next t → t.DeferredHeld)

/-! ## The reading orders -/

/-- R27: LANDING-READ and CLEAR-READ report, and change nothing. R64: PN-READ reports, and changes nothing. R68:
SHUTTER-READ reports, and changes nothing. R125, R137, R139, R150: CALL-READ, PHRASE-READ, SCRIPT-READ and
ANNOUNCE-READ report, and change nothing. R154, R160, R162, R164, R173: TIME-READ, HOURS-READ, STAMP-READ,
PROGRAMME-READ and RUN-READ report, and change nothing. The layouts of the answers, where R184 tables none, are the
model's reading (log 3), among them the unit of a time left (log 46), the none of PHRASE-READ (log 47), the offset byte
of a step (log 48), the items of two values (log 49) and the sets that carry the levels of the lines of a group (log 54),
and so is that no landing is surveyed while the number of cars is unset (log 38). That a CALL-READ or RUN-READ answer longer than a frame holds stays whole is its choice (log 24). -/
def Obligations.ReadingOrdersReport : Prop :=
  (∀ (h : OrderHead) (s : State), s.Ready →
     (∀ (body : List Byte) (i : Fin 8), body.length = 1 → Body.fin 8 body 0 = some i →
       exec (.landingRead h body) s = .next (s.answered h 0x12 .done .none
         (Enc.flag s.cht.landings[i].present ++ Enc.flag (s.cht.surveyed s.cht.landings[i]) ++
           Enc.positions s.cht.landings[i].up ++ Enc.positions s.cht.landings[i].down))) ∧
     (∀ body : List Byte, body.length = 1 → Body.fin 8 body 0 = none →
       exec (.landingRead h body) s = .next (s.answered h 0x12 .refused .range [])) ∧
     (∀ body : List Byte, body.length ≠ 1 →
       exec (.landingRead h body) s = .next (s.answered h 0x12 .refused .form [])) ∧
     exec (.clearRead h []) s = .next (s.answered h 0x14 .done .none
       (Enc.settings s.cht.settings ++ Enc.position s.cht.position ++ Enc.flag s.cht.settled ++ Enc.set8 s.clearNow ++
         Enc.byte s.cht.clearList.length ++ (s.cht.clearList.flatMap fun x => Enc.word x.pos ++ Enc.set8 x.set) ++
         Enc.position (s.cht.bestRest.map ClearEntry.pos) ++ Enc.byte s.cht.phase))) ∧
  (∀ (h : OrderHead) (s : State), s.Ready →
     exec (.pnRead h []) s = .next (s.answered h 0x1D .done .none
       (Enc.byte s.pnc.state.code ++ Enc.byte s.demand.code ++ Enc.byte s.pnc.purpose.code ++ Enc.position s.pnc.target ++
         Enc.byte s.pnc.missCount ++ Enc.byte s.pnc.startFaults ++ Enc.causeSet s.pnc.causes ++
         Enc.flag s.pnc.creepPending ++ Enc.word s.pnc.sweepCount ++ Enc.position s.cht.position ++
         Enc.flag s.lines.drvReady ++ Enc.flag s.lines.drvFault ++ Enc.set8 s.lines.cords ++ Enc.set8 s.lines.guards))) ∧
  (∀ (h : OrderHead) (body : List Byte) (i : Fin 16) (s : State), s.Ready → body.length = 1 → Body.fin 16 body 0 = some i →
     exec (.shutterRead h body) s = .next (s.answered h 0x21 .done .none
       (Enc.record s.shc.stations[i] ++ Enc.shutterState s.shc.stations[i] ++
         Enc.set8 ((s.shc.stations[i].map Shutter.faults).getD 0) ++ Enc.byte ((s.shc.stations[i].map Shutter.obstr).getD 0) ++
         Enc.proof (s.shc.stations[i].bind Shutter.proof) ++ Enc.flag (s.shc.stations[i].any Shutter.proving) ++
         Enc.flag (s.shc.stations[i].any Shutter.retryWait) ++
         Enc.word ((s.shc.stations[i].map fun x => x.descentLeft s.tmb.ownTime).getD 0) ++
         Enc.flag (s.lines.openLim.getLsbD i.val) ++ Enc.flag (s.lines.closedLim.getLsbD i.val) ++
         Enc.flag (s.lines.edge.getLsbD i.val) ++ Enc.flag (s.out.outA.getLsbD i.val) ++ Enc.flag (s.out.outB.getLsbD i.val)))) ∧
  (∀ (h : OrderHead) (s : State), s.Ready →
     exec (.callRead h []) s = .next (s.answered h 0x43 .done .none
       (Enc.bellSettings s.blx ++ Enc.byte s.blx.calls.length ++
         ((List.finRange 3).flatMap fun r => Enc.ringer s.tmb.ownTime s.blx.ringers[r]) ++
         Enc.standingCall s.blx .evac ++ Enc.standingCall s.blx .alert ++ s.blx.queue.flatMap (Enc.call false) ++
         s.blx.heldCalls.flatMap (Enc.call true) ++ Enc.set16 s.lines.answer)) ∧
     exec (.phraseRead h []) s = .next (s.answered h 0x52 .done .none (Enc.directory s.phs s.anp.sounding)) ∧
     (∀ (body : List Byte) (k : Fin 64), body.length = 1 → Body.fin 64 body 0 = some k →
       exec (.phraseRead h body) s = .next (s.answered h 0x52 .done .none
         (Enc.byte k.val ++ Enc.byte s.phs.slots[k].state.code ++ Enc.word s.phs.slots[k].length ++
           Enc.word (s.phs.start k.val) ++ Enc.word s.phs.slots[k].check.toNat ++
           Enc.word ((s.phs.slots[k].computed.map BitVec.toNat).getD 0xFFFF) ++ Enc.word s.phs.slots[k].loaded.length ++
           Enc.word ((Phs.lowestMissing s.phs.slots[k]).getD 0xFFFF) ++ Enc.flag (s.anp.sounding == some k)))) ∧
     (∀ body : List Byte, body.length = 1 → Body.fin 64 body 0 = none →
       exec (.phraseRead h body) s = .next (s.answered h 0x52 .refused .range [])) ∧
     (∀ (body : List Byte) (k : Fin 16), body.length = 1 → Body.fin 16 body 0 = some k →
       exec (.scriptRead h body) s = .next (s.answered h 0x61 .done .none
         (Enc.flag s.anp.scripts[k].chime ++ Enc.set8 s.anp.scripts[k].speakers ++
           Enc.byte s.anp.scripts[k].items.length ++
           s.anp.scripts[k].items.flatMap fun i => Enc.byte i.slot ++ Enc.byte i.repeats ++ Enc.byte i.gap))) ∧
     exec (.announceRead h []) s = .next (s.answered h 0x64 .done .none
       (Enc.byte s.anp.state.code ++ Enc.flag s.anp.fire ++ Enc.playing s.anp.playing ++ Enc.cursor s.anp.cursor ++
         Enc.flag s.anp.pendingCut ++ Enc.skip s.anp.skip ++ Enc.optByte (s.anp.sounding.map Fin.val) ++
         Enc.word (s.anp.timer.left s.tmb.ownTime) ++ Enc.set8 s.out.spk ++ Enc.flag s.out.ampEn ++
         Enc.byte s.anp.queue.length ++ s.anp.queue.flatMap Enc.announcement))) ∧
  (∀ (h : OrderHead) (s : State), s.Ready →
     exec (.timeRead h []) s = .next (s.answered h 0x71 .done .none
       (Enc.calTime s.tmb.cal ++ Enc.byte s.tmb.cal.date.weekday ++ Enc.flag s.tmb.timeUnset ++ Enc.flag s.tmb.fault ++
         Enc.byte s.tmb.ref.code ++ Enc.trim s.tmb.trim)) ∧
     exec (.hoursRead h []) s = .next (s.answered h 0x77 .done .none
       (s.tmb.weekly.toList.flatMap Enc.hours ++ Enc.byte s.tmb.exceptions.length ++
         (s.tmb.exceptions.flatMap fun x => Enc.date x.date ++ Enc.hours x.hours) ++ Enc.date s.tmb.cal.date ++
         Enc.byte s.tmb.cal.date.weekday ++ Enc.hours s.tmb.today ++
         Enc.flag (s.tmb.exceptionOn s.tmb.cal.date).isSome)) ∧
     exec (.stampRead h []) s = .next (s.answered h 0x78 .done .none (s.stamps.toList.flatMap Enc.stamp)) ∧
     exec (.programmeRead h []) s = .next (s.answered h 0x81 .done .none
       (Enc.byte s.cpu.programme.length ++ s.cpu.programme.flatMap Enc.step ++ Enc.start s.cpu.start)) ∧
     exec (.runRead h []) s = .next (s.answered h 0x84 .done .none
       (Enc.flag s.cpu.run.isSome ++ ((s.cpu.run.map Enc.run).getD []) ++ Enc.flag s.cpu.prev.isSome ++
         ((s.cpu.prev.map Enc.ended).getD []) ++ Enc.start s.cpu.start)))
end

