-- ==== Sys2Proof/Laws/State.lean ====
section
/-! SUPPORT. What each update of an event and of a state does to each field, true by unfolding: an update of one block
is read back there and nowhere else. -/
namespace Sys2Proof.Machine

namespace Ev

@[simp] theorem setMsu_msu (f : Msu → Msu) (e : Ev) : (e.setMsu f).msu = f e.msu := rfl
@[simp] theorem setMsu_cht (f : Msu → Msu) (e : Ev) : (e.setMsu f).cht = e.cht := rfl
@[simp] theorem setMsu_pnc (f : Msu → Msu) (e : Ev) : (e.setMsu f).pnc = e.pnc := rfl
@[simp] theorem setMsu_shc (f : Msu → Msu) (e : Ev) : (e.setMsu f).shc = e.shc := rfl
@[simp] theorem setMsu_fzu (f : Msu → Msu) (e : Ev) : (e.setMsu f).fzu = e.fzu := rfl
@[simp] theorem setMsu_blx (f : Msu → Msu) (e : Ev) : (e.setMsu f).blx = e.blx := rfl
@[simp] theorem setMsu_anp (f : Msu → Msu) (e : Ev) : (e.setMsu f).anp = e.anp := rfl
@[simp] theorem setMsu_stamps (f : Msu → Msu) (e : Ev) : (e.setMsu f).stamps = e.stamps := rfl
@[simp] theorem setMsu_cpu (f : Msu → Msu) (e : Ev) : (e.setMsu f).cpu = e.cpu := rfl
@[simp] theorem setMsu_out (f : Msu → Msu) (e : Ev) : (e.setMsu f).out = e.out := rfl
@[simp] theorem setMsu_lines (f : Msu → Msu) (e : Ev) : (e.setMsu f).lines = e.lines := rfl
@[simp] theorem setMsu_tmb (f : Msu → Msu) (e : Ev) : (e.setMsu f).tmb = e.tmb := rfl
@[simp] theorem setMsu_phs (f : Msu → Msu) (e : Ev) : (e.setMsu f).phs = e.phs := rfl
@[simp] theorem setMsu_offers (f : Msu → Msu) (e : Ev) : (e.setMsu f).offers = e.offers := rfl
@[simp] theorem setMsu_pn0 (f : Msu → Msu) (e : Ev) : (e.setMsu f).pn0 = e.pn0 := rfl
@[simp] theorem setMsu_pnForce (f : Msu → Msu) (e : Ev) : (e.setMsu f).pnForce = e.pnForce := rfl
@[simp] theorem setMsu_pnCause (f : Msu → Msu) (e : Ev) : (e.setMsu f).pnCause = e.pnCause := rfl
@[simp] theorem setMsu_p0 (f : Msu → Msu) (e : Ev) : (e.setMsu f).p0 = e.p0 := rfl
@[simp] theorem setMsu_gate0 (f : Msu → Msu) (e : Ev) : (e.setMsu f).gate0 = e.gate0 := rfl
@[simp] theorem setMsu_drvRose (f : Msu → Msu) (e : Ev) : (e.setMsu f).drvRose = e.drvRose := rfl
@[simp] theorem setMsu_mode0 (f : Msu → Msu) (e : Ev) : (e.setMsu f).mode0 = e.mode0 := rfl
@[simp] theorem setMsu_modeCause (f : Msu → Msu) (e : Ev) : (e.setMsu f).modeCause = e.modeCause := rfl
@[simp] theorem setMsu_passed (f : Msu → Msu) (e : Ev) : (e.setMsu f).passed = e.passed := rfl
@[simp] theorem setMsu_toEnv (f : Msu → Msu) (e : Ev) : (e.setMsu f).toEnv = e.toEnv := rfl
theorem setMsu_toStore (f : Msu → Msu) (e : Ev) : (e.setMsu f).toStore = { e.toStore with msu := f e.msu } := rfl

@[simp] theorem setCht_msu (f : Cht → Cht) (e : Ev) : (e.setCht f).msu = e.msu := rfl
@[simp] theorem setCht_cht (f : Cht → Cht) (e : Ev) : (e.setCht f).cht = f e.cht := rfl
@[simp] theorem setCht_pnc (f : Cht → Cht) (e : Ev) : (e.setCht f).pnc = e.pnc := rfl
@[simp] theorem setCht_shc (f : Cht → Cht) (e : Ev) : (e.setCht f).shc = e.shc := rfl
@[simp] theorem setCht_fzu (f : Cht → Cht) (e : Ev) : (e.setCht f).fzu = e.fzu := rfl
@[simp] theorem setCht_blx (f : Cht → Cht) (e : Ev) : (e.setCht f).blx = e.blx := rfl
@[simp] theorem setCht_anp (f : Cht → Cht) (e : Ev) : (e.setCht f).anp = e.anp := rfl
@[simp] theorem setCht_stamps (f : Cht → Cht) (e : Ev) : (e.setCht f).stamps = e.stamps := rfl
@[simp] theorem setCht_cpu (f : Cht → Cht) (e : Ev) : (e.setCht f).cpu = e.cpu := rfl
@[simp] theorem setCht_out (f : Cht → Cht) (e : Ev) : (e.setCht f).out = e.out := rfl
@[simp] theorem setCht_lines (f : Cht → Cht) (e : Ev) : (e.setCht f).lines = e.lines := rfl
@[simp] theorem setCht_tmb (f : Cht → Cht) (e : Ev) : (e.setCht f).tmb = e.tmb := rfl
@[simp] theorem setCht_phs (f : Cht → Cht) (e : Ev) : (e.setCht f).phs = e.phs := rfl
@[simp] theorem setCht_offers (f : Cht → Cht) (e : Ev) : (e.setCht f).offers = e.offers := rfl
@[simp] theorem setCht_pn0 (f : Cht → Cht) (e : Ev) : (e.setCht f).pn0 = e.pn0 := rfl
@[simp] theorem setCht_pnForce (f : Cht → Cht) (e : Ev) : (e.setCht f).pnForce = e.pnForce := rfl
@[simp] theorem setCht_pnCause (f : Cht → Cht) (e : Ev) : (e.setCht f).pnCause = e.pnCause := rfl
@[simp] theorem setCht_p0 (f : Cht → Cht) (e : Ev) : (e.setCht f).p0 = e.p0 := rfl
@[simp] theorem setCht_gate0 (f : Cht → Cht) (e : Ev) : (e.setCht f).gate0 = e.gate0 := rfl
@[simp] theorem setCht_drvRose (f : Cht → Cht) (e : Ev) : (e.setCht f).drvRose = e.drvRose := rfl
@[simp] theorem setCht_mode0 (f : Cht → Cht) (e : Ev) : (e.setCht f).mode0 = e.mode0 := rfl
@[simp] theorem setCht_modeCause (f : Cht → Cht) (e : Ev) : (e.setCht f).modeCause = e.modeCause := rfl
@[simp] theorem setCht_passed (f : Cht → Cht) (e : Ev) : (e.setCht f).passed = e.passed := rfl
@[simp] theorem setCht_toEnv (f : Cht → Cht) (e : Ev) : (e.setCht f).toEnv = e.toEnv := rfl
theorem setCht_toStore (f : Cht → Cht) (e : Ev) : (e.setCht f).toStore = { e.toStore with cht := f e.cht } := rfl

@[simp] theorem setPnc_msu (f : Pnc → Pnc) (e : Ev) : (e.setPnc f).msu = e.msu := rfl
@[simp] theorem setPnc_cht (f : Pnc → Pnc) (e : Ev) : (e.setPnc f).cht = e.cht := rfl
@[simp] theorem setPnc_pnc (f : Pnc → Pnc) (e : Ev) : (e.setPnc f).pnc = f e.pnc := rfl
@[simp] theorem setPnc_shc (f : Pnc → Pnc) (e : Ev) : (e.setPnc f).shc = e.shc := rfl
@[simp] theorem setPnc_fzu (f : Pnc → Pnc) (e : Ev) : (e.setPnc f).fzu = e.fzu := rfl
@[simp] theorem setPnc_blx (f : Pnc → Pnc) (e : Ev) : (e.setPnc f).blx = e.blx := rfl
@[simp] theorem setPnc_anp (f : Pnc → Pnc) (e : Ev) : (e.setPnc f).anp = e.anp := rfl
@[simp] theorem setPnc_stamps (f : Pnc → Pnc) (e : Ev) : (e.setPnc f).stamps = e.stamps := rfl
@[simp] theorem setPnc_cpu (f : Pnc → Pnc) (e : Ev) : (e.setPnc f).cpu = e.cpu := rfl
@[simp] theorem setPnc_out (f : Pnc → Pnc) (e : Ev) : (e.setPnc f).out = e.out := rfl
@[simp] theorem setPnc_lines (f : Pnc → Pnc) (e : Ev) : (e.setPnc f).lines = e.lines := rfl
@[simp] theorem setPnc_tmb (f : Pnc → Pnc) (e : Ev) : (e.setPnc f).tmb = e.tmb := rfl
@[simp] theorem setPnc_phs (f : Pnc → Pnc) (e : Ev) : (e.setPnc f).phs = e.phs := rfl
@[simp] theorem setPnc_offers (f : Pnc → Pnc) (e : Ev) : (e.setPnc f).offers = e.offers := rfl
@[simp] theorem setPnc_pn0 (f : Pnc → Pnc) (e : Ev) : (e.setPnc f).pn0 = e.pn0 := rfl
@[simp] theorem setPnc_pnForce (f : Pnc → Pnc) (e : Ev) : (e.setPnc f).pnForce = e.pnForce := rfl
@[simp] theorem setPnc_pnCause (f : Pnc → Pnc) (e : Ev) : (e.setPnc f).pnCause = e.pnCause := rfl
@[simp] theorem setPnc_p0 (f : Pnc → Pnc) (e : Ev) : (e.setPnc f).p0 = e.p0 := rfl
@[simp] theorem setPnc_gate0 (f : Pnc → Pnc) (e : Ev) : (e.setPnc f).gate0 = e.gate0 := rfl
@[simp] theorem setPnc_drvRose (f : Pnc → Pnc) (e : Ev) : (e.setPnc f).drvRose = e.drvRose := rfl
@[simp] theorem setPnc_mode0 (f : Pnc → Pnc) (e : Ev) : (e.setPnc f).mode0 = e.mode0 := rfl
@[simp] theorem setPnc_modeCause (f : Pnc → Pnc) (e : Ev) : (e.setPnc f).modeCause = e.modeCause := rfl
@[simp] theorem setPnc_passed (f : Pnc → Pnc) (e : Ev) : (e.setPnc f).passed = e.passed := rfl
@[simp] theorem setPnc_toEnv (f : Pnc → Pnc) (e : Ev) : (e.setPnc f).toEnv = e.toEnv := rfl
theorem setPnc_toStore (f : Pnc → Pnc) (e : Ev) : (e.setPnc f).toStore = { e.toStore with pnc := f e.pnc } := rfl

@[simp] theorem setShc_msu (f : Shc → Shc) (e : Ev) : (e.setShc f).msu = e.msu := rfl
@[simp] theorem setShc_cht (f : Shc → Shc) (e : Ev) : (e.setShc f).cht = e.cht := rfl
@[simp] theorem setShc_pnc (f : Shc → Shc) (e : Ev) : (e.setShc f).pnc = e.pnc := rfl
@[simp] theorem setShc_shc (f : Shc → Shc) (e : Ev) : (e.setShc f).shc = f e.shc := rfl
@[simp] theorem setShc_fzu (f : Shc → Shc) (e : Ev) : (e.setShc f).fzu = e.fzu := rfl
@[simp] theorem setShc_blx (f : Shc → Shc) (e : Ev) : (e.setShc f).blx = e.blx := rfl
@[simp] theorem setShc_anp (f : Shc → Shc) (e : Ev) : (e.setShc f).anp = e.anp := rfl
@[simp] theorem setShc_stamps (f : Shc → Shc) (e : Ev) : (e.setShc f).stamps = e.stamps := rfl
@[simp] theorem setShc_cpu (f : Shc → Shc) (e : Ev) : (e.setShc f).cpu = e.cpu := rfl
@[simp] theorem setShc_out (f : Shc → Shc) (e : Ev) : (e.setShc f).out = e.out := rfl
@[simp] theorem setShc_lines (f : Shc → Shc) (e : Ev) : (e.setShc f).lines = e.lines := rfl
@[simp] theorem setShc_tmb (f : Shc → Shc) (e : Ev) : (e.setShc f).tmb = e.tmb := rfl
@[simp] theorem setShc_phs (f : Shc → Shc) (e : Ev) : (e.setShc f).phs = e.phs := rfl
@[simp] theorem setShc_offers (f : Shc → Shc) (e : Ev) : (e.setShc f).offers = e.offers := rfl
@[simp] theorem setShc_pn0 (f : Shc → Shc) (e : Ev) : (e.setShc f).pn0 = e.pn0 := rfl
@[simp] theorem setShc_pnForce (f : Shc → Shc) (e : Ev) : (e.setShc f).pnForce = e.pnForce := rfl
@[simp] theorem setShc_pnCause (f : Shc → Shc) (e : Ev) : (e.setShc f).pnCause = e.pnCause := rfl
@[simp] theorem setShc_p0 (f : Shc → Shc) (e : Ev) : (e.setShc f).p0 = e.p0 := rfl
@[simp] theorem setShc_gate0 (f : Shc → Shc) (e : Ev) : (e.setShc f).gate0 = e.gate0 := rfl
@[simp] theorem setShc_drvRose (f : Shc → Shc) (e : Ev) : (e.setShc f).drvRose = e.drvRose := rfl
@[simp] theorem setShc_mode0 (f : Shc → Shc) (e : Ev) : (e.setShc f).mode0 = e.mode0 := rfl
@[simp] theorem setShc_modeCause (f : Shc → Shc) (e : Ev) : (e.setShc f).modeCause = e.modeCause := rfl
@[simp] theorem setShc_passed (f : Shc → Shc) (e : Ev) : (e.setShc f).passed = e.passed := rfl
@[simp] theorem setShc_toEnv (f : Shc → Shc) (e : Ev) : (e.setShc f).toEnv = e.toEnv := rfl
theorem setShc_toStore (f : Shc → Shc) (e : Ev) : (e.setShc f).toStore = { e.toStore with shc := f e.shc } := rfl

@[simp] theorem setFzu_msu (f : Fzu → Fzu) (e : Ev) : (e.setFzu f).msu = e.msu := rfl
@[simp] theorem setFzu_cht (f : Fzu → Fzu) (e : Ev) : (e.setFzu f).cht = e.cht := rfl
@[simp] theorem setFzu_pnc (f : Fzu → Fzu) (e : Ev) : (e.setFzu f).pnc = e.pnc := rfl
@[simp] theorem setFzu_shc (f : Fzu → Fzu) (e : Ev) : (e.setFzu f).shc = e.shc := rfl
@[simp] theorem setFzu_fzu (f : Fzu → Fzu) (e : Ev) : (e.setFzu f).fzu = f e.fzu := rfl
@[simp] theorem setFzu_blx (f : Fzu → Fzu) (e : Ev) : (e.setFzu f).blx = e.blx := rfl
@[simp] theorem setFzu_anp (f : Fzu → Fzu) (e : Ev) : (e.setFzu f).anp = e.anp := rfl
@[simp] theorem setFzu_stamps (f : Fzu → Fzu) (e : Ev) : (e.setFzu f).stamps = e.stamps := rfl
@[simp] theorem setFzu_cpu (f : Fzu → Fzu) (e : Ev) : (e.setFzu f).cpu = e.cpu := rfl
@[simp] theorem setFzu_out (f : Fzu → Fzu) (e : Ev) : (e.setFzu f).out = e.out := rfl
@[simp] theorem setFzu_lines (f : Fzu → Fzu) (e : Ev) : (e.setFzu f).lines = e.lines := rfl
@[simp] theorem setFzu_tmb (f : Fzu → Fzu) (e : Ev) : (e.setFzu f).tmb = e.tmb := rfl
@[simp] theorem setFzu_phs (f : Fzu → Fzu) (e : Ev) : (e.setFzu f).phs = e.phs := rfl
@[simp] theorem setFzu_offers (f : Fzu → Fzu) (e : Ev) : (e.setFzu f).offers = e.offers := rfl
@[simp] theorem setFzu_pn0 (f : Fzu → Fzu) (e : Ev) : (e.setFzu f).pn0 = e.pn0 := rfl
@[simp] theorem setFzu_pnForce (f : Fzu → Fzu) (e : Ev) : (e.setFzu f).pnForce = e.pnForce := rfl
@[simp] theorem setFzu_pnCause (f : Fzu → Fzu) (e : Ev) : (e.setFzu f).pnCause = e.pnCause := rfl
@[simp] theorem setFzu_p0 (f : Fzu → Fzu) (e : Ev) : (e.setFzu f).p0 = e.p0 := rfl
@[simp] theorem setFzu_gate0 (f : Fzu → Fzu) (e : Ev) : (e.setFzu f).gate0 = e.gate0 := rfl
@[simp] theorem setFzu_drvRose (f : Fzu → Fzu) (e : Ev) : (e.setFzu f).drvRose = e.drvRose := rfl
@[simp] theorem setFzu_mode0 (f : Fzu → Fzu) (e : Ev) : (e.setFzu f).mode0 = e.mode0 := rfl
@[simp] theorem setFzu_modeCause (f : Fzu → Fzu) (e : Ev) : (e.setFzu f).modeCause = e.modeCause := rfl
@[simp] theorem setFzu_passed (f : Fzu → Fzu) (e : Ev) : (e.setFzu f).passed = e.passed := rfl
@[simp] theorem setFzu_toEnv (f : Fzu → Fzu) (e : Ev) : (e.setFzu f).toEnv = e.toEnv := rfl
theorem setFzu_toStore (f : Fzu → Fzu) (e : Ev) : (e.setFzu f).toStore = { e.toStore with fzu := f e.fzu } := rfl

@[simp] theorem setBlx_msu (f : Blx → Blx) (e : Ev) : (e.setBlx f).msu = e.msu := rfl
@[simp] theorem setBlx_cht (f : Blx → Blx) (e : Ev) : (e.setBlx f).cht = e.cht := rfl
@[simp] theorem setBlx_pnc (f : Blx → Blx) (e : Ev) : (e.setBlx f).pnc = e.pnc := rfl
@[simp] theorem setBlx_shc (f : Blx → Blx) (e : Ev) : (e.setBlx f).shc = e.shc := rfl
@[simp] theorem setBlx_fzu (f : Blx → Blx) (e : Ev) : (e.setBlx f).fzu = e.fzu := rfl
@[simp] theorem setBlx_blx (f : Blx → Blx) (e : Ev) : (e.setBlx f).blx = f e.blx := rfl
@[simp] theorem setBlx_anp (f : Blx → Blx) (e : Ev) : (e.setBlx f).anp = e.anp := rfl
@[simp] theorem setBlx_stamps (f : Blx → Blx) (e : Ev) : (e.setBlx f).stamps = e.stamps := rfl
@[simp] theorem setBlx_cpu (f : Blx → Blx) (e : Ev) : (e.setBlx f).cpu = e.cpu := rfl
@[simp] theorem setBlx_out (f : Blx → Blx) (e : Ev) : (e.setBlx f).out = e.out := rfl
@[simp] theorem setBlx_lines (f : Blx → Blx) (e : Ev) : (e.setBlx f).lines = e.lines := rfl
@[simp] theorem setBlx_tmb (f : Blx → Blx) (e : Ev) : (e.setBlx f).tmb = e.tmb := rfl
@[simp] theorem setBlx_phs (f : Blx → Blx) (e : Ev) : (e.setBlx f).phs = e.phs := rfl
@[simp] theorem setBlx_offers (f : Blx → Blx) (e : Ev) : (e.setBlx f).offers = e.offers := rfl
@[simp] theorem setBlx_pn0 (f : Blx → Blx) (e : Ev) : (e.setBlx f).pn0 = e.pn0 := rfl
@[simp] theorem setBlx_pnForce (f : Blx → Blx) (e : Ev) : (e.setBlx f).pnForce = e.pnForce := rfl
@[simp] theorem setBlx_pnCause (f : Blx → Blx) (e : Ev) : (e.setBlx f).pnCause = e.pnCause := rfl
@[simp] theorem setBlx_p0 (f : Blx → Blx) (e : Ev) : (e.setBlx f).p0 = e.p0 := rfl
@[simp] theorem setBlx_gate0 (f : Blx → Blx) (e : Ev) : (e.setBlx f).gate0 = e.gate0 := rfl
@[simp] theorem setBlx_drvRose (f : Blx → Blx) (e : Ev) : (e.setBlx f).drvRose = e.drvRose := rfl
@[simp] theorem setBlx_mode0 (f : Blx → Blx) (e : Ev) : (e.setBlx f).mode0 = e.mode0 := rfl
@[simp] theorem setBlx_modeCause (f : Blx → Blx) (e : Ev) : (e.setBlx f).modeCause = e.modeCause := rfl
@[simp] theorem setBlx_passed (f : Blx → Blx) (e : Ev) : (e.setBlx f).passed = e.passed := rfl
@[simp] theorem setBlx_toEnv (f : Blx → Blx) (e : Ev) : (e.setBlx f).toEnv = e.toEnv := rfl
theorem setBlx_toStore (f : Blx → Blx) (e : Ev) : (e.setBlx f).toStore = { e.toStore with blx := f e.blx } := rfl

@[simp] theorem setAnp_msu (f : Anp → Anp) (e : Ev) : (e.setAnp f).msu = e.msu := rfl
@[simp] theorem setAnp_cht (f : Anp → Anp) (e : Ev) : (e.setAnp f).cht = e.cht := rfl
@[simp] theorem setAnp_pnc (f : Anp → Anp) (e : Ev) : (e.setAnp f).pnc = e.pnc := rfl
@[simp] theorem setAnp_shc (f : Anp → Anp) (e : Ev) : (e.setAnp f).shc = e.shc := rfl
@[simp] theorem setAnp_fzu (f : Anp → Anp) (e : Ev) : (e.setAnp f).fzu = e.fzu := rfl
@[simp] theorem setAnp_blx (f : Anp → Anp) (e : Ev) : (e.setAnp f).blx = e.blx := rfl
@[simp] theorem setAnp_anp (f : Anp → Anp) (e : Ev) : (e.setAnp f).anp = f e.anp := rfl
@[simp] theorem setAnp_stamps (f : Anp → Anp) (e : Ev) : (e.setAnp f).stamps = e.stamps := rfl
@[simp] theorem setAnp_cpu (f : Anp → Anp) (e : Ev) : (e.setAnp f).cpu = e.cpu := rfl
@[simp] theorem setAnp_out (f : Anp → Anp) (e : Ev) : (e.setAnp f).out = e.out := rfl
@[simp] theorem setAnp_lines (f : Anp → Anp) (e : Ev) : (e.setAnp f).lines = e.lines := rfl
@[simp] theorem setAnp_tmb (f : Anp → Anp) (e : Ev) : (e.setAnp f).tmb = e.tmb := rfl
@[simp] theorem setAnp_phs (f : Anp → Anp) (e : Ev) : (e.setAnp f).phs = e.phs := rfl
@[simp] theorem setAnp_offers (f : Anp → Anp) (e : Ev) : (e.setAnp f).offers = e.offers := rfl
@[simp] theorem setAnp_pn0 (f : Anp → Anp) (e : Ev) : (e.setAnp f).pn0 = e.pn0 := rfl
@[simp] theorem setAnp_pnForce (f : Anp → Anp) (e : Ev) : (e.setAnp f).pnForce = e.pnForce := rfl
@[simp] theorem setAnp_pnCause (f : Anp → Anp) (e : Ev) : (e.setAnp f).pnCause = e.pnCause := rfl
@[simp] theorem setAnp_p0 (f : Anp → Anp) (e : Ev) : (e.setAnp f).p0 = e.p0 := rfl
@[simp] theorem setAnp_gate0 (f : Anp → Anp) (e : Ev) : (e.setAnp f).gate0 = e.gate0 := rfl
@[simp] theorem setAnp_drvRose (f : Anp → Anp) (e : Ev) : (e.setAnp f).drvRose = e.drvRose := rfl
@[simp] theorem setAnp_mode0 (f : Anp → Anp) (e : Ev) : (e.setAnp f).mode0 = e.mode0 := rfl
@[simp] theorem setAnp_modeCause (f : Anp → Anp) (e : Ev) : (e.setAnp f).modeCause = e.modeCause := rfl
@[simp] theorem setAnp_passed (f : Anp → Anp) (e : Ev) : (e.setAnp f).passed = e.passed := rfl
@[simp] theorem setAnp_toEnv (f : Anp → Anp) (e : Ev) : (e.setAnp f).toEnv = e.toEnv := rfl
theorem setAnp_toStore (f : Anp → Anp) (e : Ev) : (e.setAnp f).toStore = { e.toStore with anp := f e.anp } := rfl

@[simp] theorem setStamps_msu (f : Vector Stamp 5 → Vector Stamp 5) (e : Ev) : (e.setStamps f).msu = e.msu := rfl
@[simp] theorem setStamps_cht (f : Vector Stamp 5 → Vector Stamp 5) (e : Ev) : (e.setStamps f).cht = e.cht := rfl
@[simp] theorem setStamps_pnc (f : Vector Stamp 5 → Vector Stamp 5) (e : Ev) : (e.setStamps f).pnc = e.pnc := rfl
@[simp] theorem setStamps_shc (f : Vector Stamp 5 → Vector Stamp 5) (e : Ev) : (e.setStamps f).shc = e.shc := rfl
@[simp] theorem setStamps_fzu (f : Vector Stamp 5 → Vector Stamp 5) (e : Ev) : (e.setStamps f).fzu = e.fzu := rfl
@[simp] theorem setStamps_blx (f : Vector Stamp 5 → Vector Stamp 5) (e : Ev) : (e.setStamps f).blx = e.blx := rfl
@[simp] theorem setStamps_anp (f : Vector Stamp 5 → Vector Stamp 5) (e : Ev) : (e.setStamps f).anp = e.anp := rfl
@[simp] theorem setStamps_stamps (f : Vector Stamp 5 → Vector Stamp 5) (e : Ev) : (e.setStamps f).stamps = f e.stamps := rfl
@[simp] theorem setStamps_cpu (f : Vector Stamp 5 → Vector Stamp 5) (e : Ev) : (e.setStamps f).cpu = e.cpu := rfl
@[simp] theorem setStamps_out (f : Vector Stamp 5 → Vector Stamp 5) (e : Ev) : (e.setStamps f).out = e.out := rfl
@[simp] theorem setStamps_lines (f : Vector Stamp 5 → Vector Stamp 5) (e : Ev) : (e.setStamps f).lines = e.lines := rfl
@[simp] theorem setStamps_tmb (f : Vector Stamp 5 → Vector Stamp 5) (e : Ev) : (e.setStamps f).tmb = e.tmb := rfl
@[simp] theorem setStamps_phs (f : Vector Stamp 5 → Vector Stamp 5) (e : Ev) : (e.setStamps f).phs = e.phs := rfl
@[simp] theorem setStamps_offers (f : Vector Stamp 5 → Vector Stamp 5) (e : Ev) : (e.setStamps f).offers = e.offers := rfl
@[simp] theorem setStamps_pn0 (f : Vector Stamp 5 → Vector Stamp 5) (e : Ev) : (e.setStamps f).pn0 = e.pn0 := rfl
@[simp] theorem setStamps_pnForce (f : Vector Stamp 5 → Vector Stamp 5) (e : Ev) : (e.setStamps f).pnForce = e.pnForce := rfl
@[simp] theorem setStamps_pnCause (f : Vector Stamp 5 → Vector Stamp 5) (e : Ev) : (e.setStamps f).pnCause = e.pnCause := rfl
@[simp] theorem setStamps_p0 (f : Vector Stamp 5 → Vector Stamp 5) (e : Ev) : (e.setStamps f).p0 = e.p0 := rfl
@[simp] theorem setStamps_gate0 (f : Vector Stamp 5 → Vector Stamp 5) (e : Ev) : (e.setStamps f).gate0 = e.gate0 := rfl
@[simp] theorem setStamps_drvRose (f : Vector Stamp 5 → Vector Stamp 5) (e : Ev) : (e.setStamps f).drvRose = e.drvRose := rfl
@[simp] theorem setStamps_mode0 (f : Vector Stamp 5 → Vector Stamp 5) (e : Ev) : (e.setStamps f).mode0 = e.mode0 := rfl
@[simp] theorem setStamps_modeCause (f : Vector Stamp 5 → Vector Stamp 5) (e : Ev) : (e.setStamps f).modeCause = e.modeCause := rfl
@[simp] theorem setStamps_passed (f : Vector Stamp 5 → Vector Stamp 5) (e : Ev) : (e.setStamps f).passed = e.passed := rfl
@[simp] theorem setStamps_toEnv (f : Vector Stamp 5 → Vector Stamp 5) (e : Ev) : (e.setStamps f).toEnv = e.toEnv := rfl
theorem setStamps_toStore (f : Vector Stamp 5 → Vector Stamp 5) (e : Ev) : (e.setStamps f).toStore = { e.toStore with stamps := f e.stamps } := rfl

@[simp] theorem setCpu_msu (f : Cpu → Cpu) (e : Ev) : (e.setCpu f).msu = e.msu := rfl
@[simp] theorem setCpu_cht (f : Cpu → Cpu) (e : Ev) : (e.setCpu f).cht = e.cht := rfl
@[simp] theorem setCpu_pnc (f : Cpu → Cpu) (e : Ev) : (e.setCpu f).pnc = e.pnc := rfl
@[simp] theorem setCpu_shc (f : Cpu → Cpu) (e : Ev) : (e.setCpu f).shc = e.shc := rfl
@[simp] theorem setCpu_fzu (f : Cpu → Cpu) (e : Ev) : (e.setCpu f).fzu = e.fzu := rfl
@[simp] theorem setCpu_blx (f : Cpu → Cpu) (e : Ev) : (e.setCpu f).blx = e.blx := rfl
@[simp] theorem setCpu_anp (f : Cpu → Cpu) (e : Ev) : (e.setCpu f).anp = e.anp := rfl
@[simp] theorem setCpu_stamps (f : Cpu → Cpu) (e : Ev) : (e.setCpu f).stamps = e.stamps := rfl
@[simp] theorem setCpu_cpu (f : Cpu → Cpu) (e : Ev) : (e.setCpu f).cpu = f e.cpu := rfl
@[simp] theorem setCpu_out (f : Cpu → Cpu) (e : Ev) : (e.setCpu f).out = e.out := rfl
@[simp] theorem setCpu_lines (f : Cpu → Cpu) (e : Ev) : (e.setCpu f).lines = e.lines := rfl
@[simp] theorem setCpu_tmb (f : Cpu → Cpu) (e : Ev) : (e.setCpu f).tmb = e.tmb := rfl
@[simp] theorem setCpu_phs (f : Cpu → Cpu) (e : Ev) : (e.setCpu f).phs = e.phs := rfl
@[simp] theorem setCpu_offers (f : Cpu → Cpu) (e : Ev) : (e.setCpu f).offers = e.offers := rfl
@[simp] theorem setCpu_pn0 (f : Cpu → Cpu) (e : Ev) : (e.setCpu f).pn0 = e.pn0 := rfl
@[simp] theorem setCpu_pnForce (f : Cpu → Cpu) (e : Ev) : (e.setCpu f).pnForce = e.pnForce := rfl
@[simp] theorem setCpu_pnCause (f : Cpu → Cpu) (e : Ev) : (e.setCpu f).pnCause = e.pnCause := rfl
@[simp] theorem setCpu_p0 (f : Cpu → Cpu) (e : Ev) : (e.setCpu f).p0 = e.p0 := rfl
@[simp] theorem setCpu_gate0 (f : Cpu → Cpu) (e : Ev) : (e.setCpu f).gate0 = e.gate0 := rfl
@[simp] theorem setCpu_drvRose (f : Cpu → Cpu) (e : Ev) : (e.setCpu f).drvRose = e.drvRose := rfl
@[simp] theorem setCpu_mode0 (f : Cpu → Cpu) (e : Ev) : (e.setCpu f).mode0 = e.mode0 := rfl
@[simp] theorem setCpu_modeCause (f : Cpu → Cpu) (e : Ev) : (e.setCpu f).modeCause = e.modeCause := rfl
@[simp] theorem setCpu_passed (f : Cpu → Cpu) (e : Ev) : (e.setCpu f).passed = e.passed := rfl
@[simp] theorem setCpu_toEnv (f : Cpu → Cpu) (e : Ev) : (e.setCpu f).toEnv = e.toEnv := rfl
theorem setCpu_toStore (f : Cpu → Cpu) (e : Ev) : (e.setCpu f).toStore = { e.toStore with cpu := f e.cpu } := rfl

@[simp] theorem notice_msu (n : Notice) (e : Ev) : (e.notice n).msu = e.msu := rfl
@[simp] theorem notice_cht (n : Notice) (e : Ev) : (e.notice n).cht = e.cht := rfl
@[simp] theorem notice_pnc (n : Notice) (e : Ev) : (e.notice n).pnc = e.pnc := rfl
@[simp] theorem notice_shc (n : Notice) (e : Ev) : (e.notice n).shc = e.shc := rfl
@[simp] theorem notice_fzu (n : Notice) (e : Ev) : (e.notice n).fzu = e.fzu := rfl
@[simp] theorem notice_blx (n : Notice) (e : Ev) : (e.notice n).blx = e.blx := rfl
@[simp] theorem notice_anp (n : Notice) (e : Ev) : (e.notice n).anp = e.anp := rfl
@[simp] theorem notice_stamps (n : Notice) (e : Ev) : (e.notice n).stamps = e.stamps := rfl
@[simp] theorem notice_cpu (n : Notice) (e : Ev) : (e.notice n).cpu = e.cpu := rfl
@[simp] theorem notice_out (n : Notice) (e : Ev) : (e.notice n).out = e.out := rfl
@[simp] theorem notice_lines (n : Notice) (e : Ev) : (e.notice n).lines = e.lines := rfl
@[simp] theorem notice_tmb (n : Notice) (e : Ev) : (e.notice n).tmb = e.tmb := rfl
@[simp] theorem notice_phs (n : Notice) (e : Ev) : (e.notice n).phs = e.phs := rfl
@[simp] theorem notice_pn0 (n : Notice) (e : Ev) : (e.notice n).pn0 = e.pn0 := rfl
@[simp] theorem notice_pnForce (n : Notice) (e : Ev) : (e.notice n).pnForce = e.pnForce := rfl
@[simp] theorem notice_pnCause (n : Notice) (e : Ev) : (e.notice n).pnCause = e.pnCause := rfl
@[simp] theorem notice_p0 (n : Notice) (e : Ev) : (e.notice n).p0 = e.p0 := rfl
@[simp] theorem notice_gate0 (n : Notice) (e : Ev) : (e.notice n).gate0 = e.gate0 := rfl
@[simp] theorem notice_drvRose (n : Notice) (e : Ev) : (e.notice n).drvRose = e.drvRose := rfl
@[simp] theorem notice_mode0 (n : Notice) (e : Ev) : (e.notice n).mode0 = e.mode0 := rfl
@[simp] theorem notice_modeCause (n : Notice) (e : Ev) : (e.notice n).modeCause = e.modeCause := rfl
@[simp] theorem notice_passed (n : Notice) (e : Ev) : (e.notice n).passed = e.passed := rfl
@[simp] theorem notice_toStore (n : Notice) (e : Ev) : (e.notice n).toStore = e.toStore := rfl
@[simp] theorem notice_toEnv (n : Notice) (e : Ev) : (e.notice n).toEnv = e.toEnv := rfl

@[simp] theorem ended_msu (op : HeldOp) (o : Outcome) (r : Reason) (data : List Byte) (e : Ev) : (e.ended op o r data).msu = e.msu := rfl
@[simp] theorem ended_cht (op : HeldOp) (o : Outcome) (r : Reason) (data : List Byte) (e : Ev) : (e.ended op o r data).cht = e.cht := rfl
@[simp] theorem ended_pnc (op : HeldOp) (o : Outcome) (r : Reason) (data : List Byte) (e : Ev) : (e.ended op o r data).pnc = e.pnc := rfl
@[simp] theorem ended_shc (op : HeldOp) (o : Outcome) (r : Reason) (data : List Byte) (e : Ev) : (e.ended op o r data).shc = e.shc := rfl
@[simp] theorem ended_fzu (op : HeldOp) (o : Outcome) (r : Reason) (data : List Byte) (e : Ev) : (e.ended op o r data).fzu = e.fzu := rfl
@[simp] theorem ended_blx (op : HeldOp) (o : Outcome) (r : Reason) (data : List Byte) (e : Ev) : (e.ended op o r data).blx = e.blx := rfl
@[simp] theorem ended_anp (op : HeldOp) (o : Outcome) (r : Reason) (data : List Byte) (e : Ev) : (e.ended op o r data).anp = e.anp := rfl
@[simp] theorem ended_stamps (op : HeldOp) (o : Outcome) (r : Reason) (data : List Byte) (e : Ev) : (e.ended op o r data).stamps = e.stamps := rfl
@[simp] theorem ended_cpu (op : HeldOp) (o : Outcome) (r : Reason) (data : List Byte) (e : Ev) : (e.ended op o r data).cpu = e.cpu := rfl
@[simp] theorem ended_out (op : HeldOp) (o : Outcome) (r : Reason) (data : List Byte) (e : Ev) : (e.ended op o r data).out = e.out := rfl
@[simp] theorem ended_lines (op : HeldOp) (o : Outcome) (r : Reason) (data : List Byte) (e : Ev) : (e.ended op o r data).lines = e.lines := rfl
@[simp] theorem ended_tmb (op : HeldOp) (o : Outcome) (r : Reason) (data : List Byte) (e : Ev) : (e.ended op o r data).tmb = e.tmb := rfl
@[simp] theorem ended_phs (op : HeldOp) (o : Outcome) (r : Reason) (data : List Byte) (e : Ev) : (e.ended op o r data).phs = e.phs := rfl
@[simp] theorem ended_pn0 (op : HeldOp) (o : Outcome) (r : Reason) (data : List Byte) (e : Ev) : (e.ended op o r data).pn0 = e.pn0 := rfl
@[simp] theorem ended_pnForce (op : HeldOp) (o : Outcome) (r : Reason) (data : List Byte) (e : Ev) : (e.ended op o r data).pnForce = e.pnForce := rfl
@[simp] theorem ended_pnCause (op : HeldOp) (o : Outcome) (r : Reason) (data : List Byte) (e : Ev) : (e.ended op o r data).pnCause = e.pnCause := rfl
@[simp] theorem ended_p0 (op : HeldOp) (o : Outcome) (r : Reason) (data : List Byte) (e : Ev) : (e.ended op o r data).p0 = e.p0 := rfl
@[simp] theorem ended_gate0 (op : HeldOp) (o : Outcome) (r : Reason) (data : List Byte) (e : Ev) : (e.ended op o r data).gate0 = e.gate0 := rfl
@[simp] theorem ended_drvRose (op : HeldOp) (o : Outcome) (r : Reason) (data : List Byte) (e : Ev) : (e.ended op o r data).drvRose = e.drvRose := rfl
@[simp] theorem ended_mode0 (op : HeldOp) (o : Outcome) (r : Reason) (data : List Byte) (e : Ev) : (e.ended op o r data).mode0 = e.mode0 := rfl
@[simp] theorem ended_modeCause (op : HeldOp) (o : Outcome) (r : Reason) (data : List Byte) (e : Ev) : (e.ended op o r data).modeCause = e.modeCause := rfl
@[simp] theorem ended_passed (op : HeldOp) (o : Outcome) (r : Reason) (data : List Byte) (e : Ev) : (e.ended op o r data).passed = e.passed := rfl
@[simp] theorem ended_toStore (op : HeldOp) (o : Outcome) (r : Reason) (data : List Byte) (e : Ev) : (e.ended op o r data).toStore = e.toStore := rfl
@[simp] theorem ended_toEnv (op : HeldOp) (o : Outcome) (r : Reason) (data : List Byte) (e : Ev) : (e.ended op o r data).toEnv = e.toEnv := rfl

@[simp] theorem notice_offers (n : Notice) (e : Ev) : (e.notice n).offers = e.offers ++ [.notice n] := rfl
@[simp] theorem ended_offers (op : HeldOp) (o : Outcome) (r : Reason) (data : List Byte) (e : Ev) :
    (e.ended op o r data).offers = e.offers ++ [.ended op o r data] := rfl

@[simp] theorem seen_msu (e : Ev) : e.seen.msu = e.msu := rfl
@[simp] theorem seen_cht (e : Ev) : e.seen.cht = e.cht := rfl
@[simp] theorem seen_pnc (e : Ev) : e.seen.pnc = e.pnc := rfl
@[simp] theorem seen_shc (e : Ev) : e.seen.shc = e.shc := rfl
@[simp] theorem seen_fzu (e : Ev) : e.seen.fzu = e.fzu := rfl
@[simp] theorem seen_blx (e : Ev) : e.seen.blx = e.blx := rfl
@[simp] theorem seen_anp (e : Ev) : e.seen.anp = e.anp := rfl
@[simp] theorem seen_stamps (e : Ev) : e.seen.stamps = e.stamps := rfl
@[simp] theorem seen_cpu (e : Ev) : e.seen.cpu = e.cpu := rfl
@[simp] theorem seen_out (e : Ev) : e.seen.out = e.out := rfl
@[simp] theorem seen_lines (e : Ev) : e.seen.lines = e.lines := rfl
@[simp] theorem seen_tmb (e : Ev) : e.seen.tmb = e.tmb := rfl
@[simp] theorem seen_phs (e : Ev) : e.seen.phs = e.phs := rfl
@[simp] theorem seen_toStore (e : Ev) : e.seen.toStore = e.toStore := rfl
@[simp] theorem seen_toEnv (e : Ev) : e.seen.toEnv = e.toEnv := rfl
@[simp] theorem seen_offers (e : Ev) : e.seen.offers = e.offers := rfl
@[simp] theorem seen_pn0 (e : Ev) : e.seen.pn0 = e.pn0 := rfl
@[simp] theorem seen_pnForce (e : Ev) : e.seen.pnForce = e.pnForce := rfl
@[simp] theorem seen_pnCause (e : Ev) : e.seen.pnCause = e.pnCause := rfl
@[simp] theorem seen_mode0 (e : Ev) : e.seen.mode0 = e.mode0 := rfl
@[simp] theorem seen_modeCause (e : Ev) : e.seen.modeCause = e.modeCause := rfl
@[simp] theorem seen_passed (e : Ev) : e.seen.passed = e.passed := rfl

@[simp] theorem begin_toStore (v : Env) (st : Store) : (Ev.begin v st).toStore = st := rfl
@[simp] theorem begin_toEnv (v : Env) (st : Store) : (Ev.begin v st).toEnv = v := rfl
@[simp] theorem begin_offers (v : Env) (st : Store) : (Ev.begin v st).offers = [] := rfl
@[simp] theorem begin_pn0 (v : Env) (st : Store) : (Ev.begin v st).pn0 = st.pnc.state := rfl
@[simp] theorem begin_pnForce (v : Env) (st : Store) : (Ev.begin v st).pnForce = false := rfl
@[simp] theorem begin_pnCause (v : Env) (st : Store) : (Ev.begin v st).pnCause = none := rfl
@[simp] theorem begin_p0 (v : Env) (st : Store) : (Ev.begin v st).p0 = st.pendingSet := rfl
@[simp] theorem begin_gate0 (v : Env) (st : Store) : (Ev.begin v st).gate0 = st.gateOpen := rfl
@[simp] theorem begin_drvRose (v : Env) (st : Store) : (Ev.begin v st).drvRose = false := rfl
@[simp] theorem begin_mode0 (v : Env) (st : Store) : (Ev.begin v st).mode0 = st.msu.mode := rfl
@[simp] theorem begin_modeCause (v : Env) (st : Store) : (Ev.begin v st).modeCause = none := rfl
@[simp] theorem begin_passed (v : Env) (st : Store) : (Ev.begin v st).passed = false := rfl

end Ev

@[simp] theorem Store.driven_msu (s : Store) (p : Phs) : (s.driven p).msu = s.msu := rfl
@[simp] theorem Store.driven_cht (s : Store) (p : Phs) : (s.driven p).cht = { s.cht with clear := s.clearNow } := rfl
@[simp] theorem Store.driven_pnc (s : Store) (p : Phs) : (s.driven p).pnc = s.pnc := rfl
@[simp] theorem Store.driven_shc (s : Store) (p : Phs) : (s.driven p).shc = s.shc := rfl
@[simp] theorem Store.driven_fzu (s : Store) (p : Phs) : (s.driven p).fzu = s.fzu := rfl
@[simp] theorem Store.driven_blx (s : Store) (p : Phs) : (s.driven p).blx = s.blx := rfl
@[simp] theorem Store.driven_anp (s : Store) (p : Phs) : (s.driven p).anp = s.anp := rfl
@[simp] theorem Store.driven_stamps (s : Store) (p : Phs) : (s.driven p).stamps = s.stamps := rfl
@[simp] theorem Store.driven_cpu (s : Store) (p : Phs) : (s.driven p).cpu = s.cpu := rfl
@[simp] theorem Store.driven_out (s : Store) (p : Phs) : (s.driven p).out = outputs s p := rfl

@[simp] theorem State.atLines_msu (s : State) (l : Lines) : (s.atLines l).msu = s.msu := rfl
@[simp] theorem State.atLines_cht (s : State) (l : Lines) : (s.atLines l).cht = s.cht := rfl
@[simp] theorem State.atLines_pnc (s : State) (l : Lines) : (s.atLines l).pnc = s.pnc := rfl
@[simp] theorem State.atLines_shc (s : State) (l : Lines) : (s.atLines l).shc = s.shc := rfl
@[simp] theorem State.atLines_fzu (s : State) (l : Lines) : (s.atLines l).fzu = s.fzu := rfl
@[simp] theorem State.atLines_blx (s : State) (l : Lines) : (s.atLines l).blx = s.blx := rfl
@[simp] theorem State.atLines_anp (s : State) (l : Lines) : (s.atLines l).anp = s.anp := rfl
@[simp] theorem State.atLines_stamps (s : State) (l : Lines) : (s.atLines l).stamps = s.stamps := rfl
@[simp] theorem State.atLines_cpu (s : State) (l : Lines) : (s.atLines l).cpu = s.cpu := rfl
@[simp] theorem State.atLines_out (s : State) (l : Lines) : (s.atLines l).out = s.out := rfl
@[simp] theorem State.atLines_tmb (s : State) (l : Lines) : (s.atLines l).tmb = s.tmb := rfl
@[simp] theorem State.atLines_phs (s : State) (l : Lines) : (s.atLines l).phs = s.phs := rfl
@[simp] theorem State.atLines_lnk (s : State) (l : Lines) : (s.atLines l).lnk = s.lnk := rfl
@[simp] theorem State.atLines_pending (s : State) (l : Lines) : (s.atLines l).pending = s.pending := rfl
@[simp] theorem State.atLines_lines (s : State) (l : Lines) : (s.atLines l).lines = l := rfl

@[simp] theorem finish_toStore (s : State) (l : Lnk) (v : Env) (e : Ev) : (finish s l v e).toStore = e.toStore.driven v.phs := rfl
@[simp] theorem finish_toEnv (s : State) (l : Lnk) (v : Env) (e : Ev) : (finish s l v e).toEnv = v := rfl
@[simp] theorem finish_lnk (s : State) (l : Lnk) (v : Env) (e : Ev) : (finish s l v e).lnk = l.takeAll e.offers := rfl
@[simp] theorem finish_pending (s : State) (l : Lnk) (v : Env) (e : Ev) : (finish s l v e).pending = s.pending := rfl

end Sys2Proof.Machine
end

