-- ==== Sys2Proof/Laws/Event.lean ====
section
/-! SUPPORT. The end of an event in a calm store: no block acts of itself, so the event is its own claims, the notices
that report it as a whole, and the output lines that follow (R8, R40, log 5). -/
namespace Sys2Proof.Machine

@[simp] theorem Lnk.takeAll_nil (l : Lnk) : l.takeAll [] = l := rfl
@[simp] theorem Lnk.takeAll_notice (l : Lnk) (n : Notice) : l.takeAll [.notice n] = l.offer n := by
  simp [Lnk.takeAll, Offer.isNotice, Lnk.take, List.filter]

namespace Ev

theorem foldl_id {α β : Type} (xs : List β) (f : α → β → α) (a : α) (h : ∀ x ∈ xs, f a x = a) : xs.foldl f a = a := by
  induction xs with
  | nil => rfl
  | cons x xs ih =>
    rw [List.foldl_cons, h x (by simp)]
    exact ih fun y hy => h y (by simp [hy])

theorem settleStations_still {e : Ev} (h : e.toStore.Still) : e.settleStations = e := by
  unfold settleStations forEach
  apply foldl_id
  intro i _
  unfold settleStation station
  cases hs : e.shc.stations[i] with
  | none => rfl
  | some sh =>
    obtain ⟨h1, h2⟩ := h.noRelease i sh hs
    have h3 : (sh.retryWait && e.demandOff) = false := by
      cases hr : sh.retryWait with
      | false => rfl
      | true => simp [h2 hr]
    simp [h1, h3, h.noFire]

/-- In a still store only the taking of the announcement queue and assignment are left of an event's end. -/
theorem react_still {e : Ev} (h : e.toStore.Still) : e.react = e.seen.takeHead.setBlx Blx.assign := by
  have h1 : e.rechoose = e := by
    unfold rechoose when
    split
    · rename_i hc
      simp at hc
      exact absurd ⟨hc.1.1.1, Or.inr hc.1.1.2⟩ h.noSettle
    · rfl
  have h2 : e.judgeIfSettled = e := by
    unfold judgeIfSettled when
    split
    · rename_i hc
      simp at hc
      exact absurd ⟨hc.1, Or.inl hc.2⟩ h.noSettle
    · rfl
  have h3 : e.evaluateFire = e.seen := by
    simp [evaluateFire, when, h.noFire]
  have h4 : e.seen.settleStations = e.seen := settleStations_still h
  have h5 : e.seen.evaluateAgain = e.seen := by
    simp [evaluateAgain, when, h.noFire]; rfl
  have h6 : e.seen.retakeDeferred = e.seen := by
    unfold retakeDeferred
    split
    · split
      · rfl
      · have := h.noDeferred
        simp [this, forEach]
    · rfl
  have h7 : e.seen.checkNight = e.seen := by
    unfold checkNight
    rw [show e.seen.cpu = e.cpu from rfl, h.noNight]
  unfold react
  rw [h1, h2, h3]
  simp only [h4, h5, h6, h7]

theorem takeHead_none {e : Ev} (h : e.anp.queue = [] ∨ e.anp.state ≠ .idle ∨ e.anp.fire = true) : e.takeHead = e := by
  unfold takeHead
  rcases h with h' | h' | h'
  · simp [h', takeHeads]
  · cases e.anp.queue.length <;> simp [takeHeads, h']
  · cases e.anp.queue.length <;> simp [takeHeads, h']

theorem setBlx_assigned {e : Ev} (h : e.blx.assign = e.blx) : e.setBlx Blx.assign = e := by
  unfold setBlx
  rw [h]

theorem react_calm {e : Ev} (h : e.toStore.Calm) : e.react = e.seen := by
  rw [react_still h.toStill, takeHead_none (e := e.seen) h.noHead, setBlx_assigned (e := e.seen) h.noAssign]

end Ev


namespace Ev

/-- What `reportPn` offers (R40). -/
def pnOffers (e : Ev) : List Offer :=
  let st := e.pnc.state
  if st = e.pn0 ∧ e.pnForce = false then []
  else if st = .estop ∨ st = .lockedOut ∨ st = .powerStop then
    [.notice (.pnStopped e.pn0 st (if st = .estop then e.pnCause else none) e.pnc.causes e.pnc.startFaults)]
  else [.notice (.pnState e.pn0 st st.demand e.cht.position e.pnc.target e.pnc.purpose)]

/-- What `reportMode` offers (R8). -/
def modeOffers (e : Ev) : List Offer :=
  match e.modeCause with
  | none => []
  | some c =>
    [.notice (.mode e.mode0 e.msu.mode c e.passed
      (if e.msu.mode == .trading && (e.mode0 == .night || e.passed) then e.msu.wake else 0))]

theorem reportPn_eq (e : Ev) : e.reportPn = { e with offers := e.offers ++ e.pnOffers } := by
  unfold reportPn pnOffers
  dsimp only
  split
  · simp
  · split <;> rfl

theorem reportMode_eq (e : Ev) : e.reportMode = { e with offers := e.offers ++ e.modeOffers } := by
  obtain ⟨st, v, os, a, b, c, d, f, g, m, mc, p⟩ := e
  cases mc
  · simp [reportMode, modeOffers]
  · rfl

end Ev

theorem finish_calm (s : State) (l : Lnk) (v : Env) {e : Ev} (h : e.toStore.Calm) :
    finish s l v e.conclude = s.holdingIn v e.toStore (l.takeAll (e.offers ++ e.pnOffers ++ e.modeOffers)) := by
  unfold Ev.conclude
  rw [Ev.react_calm h, Ev.reportMode_eq, Ev.reportPn_eq]
  rfl

/-- An event that leaves a still store where no announcement waits for an idle player: assignment follows it (R115). -/
theorem finish_still (s : State) (l : Lnk) (v : Env) {e : Ev} (h : e.toStore.Still)
    (q : e.anp.queue = [] ∨ e.anp.state ≠ .idle ∨ e.anp.fire = true) :
    finish s l v e.conclude = s.holdingIn v { e.toStore with blx := e.blx.assign }
      (l.takeAll (e.offers ++ e.pnOffers ++ e.modeOffers)) := by
  unfold Ev.conclude
  rw [Ev.react_still h, Ev.takeHead_none (e := e.seen) q, Ev.reportMode_eq, Ev.reportPn_eq]
  rfl

/-- A field event in a store it leaves calm. -/
theorem event_calm {v : Env} {f : Ev → Ev} {s : State} (h : (f (Ev.begin v s.toStore)).toStore.Calm) :
    event v f s = s.holdingIn v (f (Ev.begin v s.toStore)).toStore
      (s.lnk.takeAll ((f (Ev.begin v s.toStore)).offers ++ (f (Ev.begin v s.toStore)).pnOffers ++
        (f (Ev.begin v s.toStore)).modeOffers)) :=
  finish_calm s s.lnk v h

/-- A field event in a store it leaves still, with no announcement waiting for an idle player. -/
theorem event_still {v : Env} {f : Ev → Ev} {s : State} (h : (f (Ev.begin v s.toStore)).toStore.Still)
    (q : (f (Ev.begin v s.toStore)).anp.queue = [] ∨ (f (Ev.begin v s.toStore)).anp.state ≠ .idle ∨
      (f (Ev.begin v s.toStore)).anp.fire = true) :
    event v f s = s.holdingIn v
      { (f (Ev.begin v s.toStore)).toStore with blx := (f (Ev.begin v s.toStore)).blx.assign }
      (s.lnk.takeAll ((f (Ev.begin v s.toStore)).offers ++ (f (Ev.begin v s.toStore)).pnOffers ++
        (f (Ev.begin v s.toStore)).modeOffers)) :=
  finish_still s s.lnk v h q

end Sys2Proof.Machine
end

