-- ==== Sys2Proof/Laws/Memory.lean ====
section
/-! SUPPORT. The block storage (R127): every operation keeps its canonical form, and a byte written reads back. -/
namespace Sys2Proof.Machine.Memory

theorem wfFrom_mono {lo lo' : Nat} {m : List Host.Cell} (h : wfFrom lo m = true) (hl : lo' ≤ lo) :
    wfFrom lo' m = true := by
  cases m with
  | nil => rfl
  | cons c m =>
    obtain ⟨a, b⟩ := c
    simp only [wfFrom, Bool.and_eq_true, decide_eq_true_eq] at h ⊢
    exact ⟨⟨Nat.le_trans hl h.1.1, h.1.2⟩, h.2⟩

theorem write_wfFrom {lo : Nat} {m : List Host.Cell} (x : Nat) (v : Byte) (h : wfFrom lo m = true) (hx : lo ≤ x) :
    wfFrom lo (write m x v) = true := by
  induction m generalizing lo with
  | nil =>
    unfold write
    split
    · rfl
    · simp [wfFrom, *]
  | cons c m ih =>
    obtain ⟨a, b⟩ := c
    simp only [wfFrom, Bool.and_eq_true, decide_eq_true_eq] at h
    unfold write
    split
    · rename_i hlt
      split
      · simp [wfFrom, h]
      · rename_i hv
        simp only [wfFrom, Bool.and_eq_true, decide_eq_true_eq]
        exact ⟨⟨hx, hv⟩, ⟨⟨hlt, h.1.2⟩, h.2⟩⟩
    · split
      · rename_i hxa
        split
        · exact wfFrom_mono h.2 (by omega)
        · rename_i hv
          simp only [wfFrom, Bool.and_eq_true, decide_eq_true_eq]
          exact ⟨⟨hx, hv⟩, hxa ▸ h.2⟩
      · simp only [wfFrom, Bool.and_eq_true, decide_eq_true_eq]
        exact ⟨h.1, ih h.2 (by omega)⟩

/-- A write keeps the canonical form. -/
theorem write_wf {m : List Host.Cell} (x : Nat) (v : Byte) (h : wf m = true) : wf (write m x v) = true :=
  write_wfFrom x v h (Nat.zero_le _)

/-- A run of writes keeps the canonical form. -/
theorem writeAll_wf {m : List Host.Cell} (x : Nat) (vs : List Byte) (h : wf m = true) :
    wf (writeAll m x vs) = true := by
  induction vs generalizing m x with
  | nil => exact h
  | cons v vs ih => exact ih (x + 1) (write_wf x v h)

/-- The storage at reset has the canonical form. -/
theorem reset_wf : wf Phs.reset.storage = true := rfl

theorem read_below {lo : Nat} {m : List Host.Cell} {x : Nat} (h : wfFrom lo m = true) (hx : x < lo) :
    read m x = Config.blankByte := by
  induction m generalizing lo with
  | nil => rfl
  | cons c m ih =>
    obtain ⟨a, b⟩ := c
    simp only [wfFrom, Bool.and_eq_true, decide_eq_true_eq] at h
    unfold read
    rw [if_neg (by omega)]
    exact ih h.2 (by omega)

/-- A byte written reads back, and every other byte reads as before. -/
theorem read_write {m : List Host.Cell} (x y : Nat) (v : Byte) (h : wf m = true) :
    read (write m x v) y = if y = x then v else read m y := by
  suffices ∀ lo, wfFrom lo m = true → read (write m x v) y = if y = x then v else read m y from this 0 h
  induction m with
  | nil =>
    intro lo _
    unfold write
    split
    · rename_i hv; simp only [read, hv]; split <;> rfl
    · simp only [read]
  | cons c m ih =>
    obtain ⟨a, b⟩ := c
    intro lo h
    simp only [wfFrom, Bool.and_eq_true, decide_eq_true_eq] at h
    unfold write
    split
    · rename_i hlt
      split
      · rename_i hv
        split
        · rename_i hy
          subst hy
          unfold read
          rw [if_neg (by omega), read_below h.2 (by omega), hv]
        · rfl
      · rfl
    · split
      · rename_i hxa
        subst hxa
        split
        · rename_i hv
          by_cases hy : y = x
          · subst hy
            rw [if_pos rfl, read_below h.2 (by omega), hv]
          · rw [if_neg hy]
            show _ = if y = x then b else read m y
            rw [if_neg hy]
        · by_cases hy : y = x
          · subst hy; simp [read]
          · simp [read, hy]
      · rename_i hne
        by_cases hy : y = a
        · subst hy
          simp only [read, if_pos]
          rw [if_neg (fun h => hne h.symm)]
        · simp only [read, if_neg hy]
          exact ih (wfFrom_mono h.2 (Nat.zero_le _)) _ h.2

/-- A run of writes leaves every byte outside it as it was. -/
theorem read_writeAll_outside {m : List Host.Cell} (x y : Nat) (vs : List Byte) (h : wf m = true)
    (hy : y < x ∨ x + vs.length ≤ y) : read (writeAll m x vs) y = read m y := by
  induction vs generalizing m x with
  | nil => rfl
  | cons v vs ih =>
    have hy' : y < x ∨ x + 1 + vs.length ≤ y := by simp only [List.length_cons] at hy; omega
    have hne : y ≠ x := by simp only [List.length_cons] at hy; omega
    show read (writeAll (write m x v) (x + 1) vs) y = _
    rw [ih (x + 1) (write_wf x v h) (by omega), read_write x y v h, if_neg hne]

/-- A run of writes reads back byte by byte. -/
theorem read_writeAll_inside {m : List Host.Cell} (x i : Nat) (vs : List Byte) (h : wf m = true) (hi : i < vs.length) :
    read (writeAll m x vs) (x + i) = vs[i] := by
  induction vs generalizing m x i with
  | nil => exact absurd hi (Nat.not_lt_zero _)
  | cons v vs ih =>
    show read (writeAll (write m x v) (x + 1) vs) (x + i) = _
    cases i with
    | zero => rw [read_writeAll_outside (x + 1) (x + 0) vs (write_wf x v h) (by omega), read_write x (x + 0) v h]; simp
    | succ i =>
      have := ih (m := write m x v) (x + 1) i (write_wf x v h) (by simpa using hi)
      rw [show x + (i + 1) = x + 1 + i from by omega, this]
      rfl

end Sys2Proof.Machine.Memory
end

