-- ==== Sys2Proof/Laws/Phrases.lean ====
section
/-! SUPPORT. What a declaration and a load do to the Phrase Store (R130-R133): lengths, totals, loaded sets, storage. -/
namespace Sys2Proof.Machine

@[simp] theorem put_self {α : Type} {n : Nat} (v : Vector α n) (i : Fin n) (x : α) : (put v i x)[i] = x := by
  simp [put]

@[simp] theorem put_self_val {α : Type} {n : Nat} (v : Vector α n) (i : Fin n) (x : α) : (put v i x)[i.val] = x :=
  put_self v i x

theorem put_other {α : Type} {n : Nat} (v : Vector α n) {i j : Fin n} (x : α) (h : i ≠ j) : (put v i x)[j] = v[j] := by
  have : i.val ≠ j.val := fun hv => h (Fin.ext hv)
  simp [put, this]

theorem put_get {α : Type} {n : Nat} (v : Vector α n) (i j : Fin n) (x : α) :
    (put v i x)[j] = if i = j then x else v[j] := by
  split
  · rename_i h; subst h; exact put_self v i x
  · rename_i h; exact put_other v x h

namespace Phs

theorem sum_set (l : List Nat) (i : Nat) (h : i < l.length) (x : Nat) : (l.set i x).sum + l[i] = l.sum + x := by
  induction l generalizing i with
  | nil => exact absurd h (Nat.not_lt_zero _)
  | cons y ys ih =>
    cases i with
    | zero => simp; omega
    | succ i =>
      have := ih i (by simpa using h)
      simp only [List.set_cons_succ, List.sum_cons, List.getElem_cons_succ]
      omega

/-- The sum of all lengths once slot `k` has a new record. -/
theorem total_put (v : Vector Slot 64) (st : List Host.Cell) (k : Fin 64) (x : Slot) :
    total ⟨st, put v k x⟩ + v[k].length = total ⟨st, v⟩ + x.length := by
  have := sum_set (v.toList.map Slot.length) k.val (by simp) x.length
  simp only [total, put, Vector.toList_set, List.map_set]
  simpa using this

/-- What a fold that empties some slots leaves in each. -/
theorem emptied_fold (gone : Fin 64 → Bool) (js : List (Fin 64)) (v : Vector Slot 64) (i : Fin 64) :
    (js.foldl (fun v j => if gone j then put v j (emptied v[j]) else v) v)[i] =
      if gone i = true ∧ i ∈ js then emptied v[i] else v[i] := by
  induction js generalizing v with
  | nil => simp
  | cons j js ih =>
    rw [List.foldl_cons, ih]
    by_cases hg : gone j = true
    · rw [if_pos hg, put_get]
      by_cases hij : j = i
      · subst hij
        simp [hg]
        intro _
        rfl
      · simp [hij, Ne.symm hij]
    · rw [if_neg hg]
      by_cases hij : i = j
      · subst hij; simp [hg]
      · simp [hij]

/-- The slots after a declaration: the declared one as given, the invalidated ones emptied, the others as they were
(R131). -/
theorem declare_slot (p : Phs) (k : Fin 64) (n : Nat) (c : BitVec 16) (i : Fin 64) :
    (p.declare k n c).slots[i] =
      if k = i then ⟨n, if n = 0 then 0 else c, [], none⟩
      else if (p.invalidated k n).getLsbD i.val then emptied p.slots[i] else p.slots[i] := by
  unfold declare
  dsimp only
  rw [put_get]
  split
  · rfl
  · rw [emptied_fold (fun j => (p.invalidated k n).getLsbD j.val)]
    simp [List.mem_finRange]

@[simp] theorem declare_storage (p : Phs) (k : Fin 64) (n : Nat) (c : BitVec 16) : (p.declare k n c).storage = p.storage :=
  rfl

theorem total_fold (gone : Fin 64 → Bool) (js : List (Fin 64)) (st : List Host.Cell) (v : Vector Slot 64) :
    total ⟨st, js.foldl (fun v j => if gone j then put v j (emptied v[j]) else v) v⟩ = total ⟨st, v⟩ := by
  induction js generalizing v with
  | nil => rfl
  | cons j js ih =>
    rw [List.foldl_cons, ih]
    split
    · have := total_put v st j (emptied v[j])
      simp only [emptied] at this ⊢
      omega
    · rfl

/-- The sum of all lengths after a declaration (R130). -/
theorem declare_total (p : Phs) (k : Fin 64) (n : Nat) (c : BitVec 16) :
    (p.declare k n c).total + p.slots[k].length = p.total + n := by
  unfold declare
  dsimp only
  have h1 := total_put ((List.finRange 64).foldl
    (fun v j => if (p.invalidated k n).getLsbD j.val then put v j (emptied v[j]) else v) p.slots) p.storage k
    ⟨n, if n = 0 then 0 else c, [], none⟩
  rw [total_fold (fun j => (p.invalidated k n).getLsbD j.val), emptied_fold (fun j => (p.invalidated k n).getLsbD j.val)] at h1
  have h2 : (if (p.invalidated k n).getLsbD k.val = true ∧ k ∈ List.finRange 64 then emptied p.slots[k] else p.slots[k]).length =
      p.slots[k].length := by
    split <;> rfl
  rw [h2] at h1
  exact h1

/-- A slot's length is part of the sum. -/
theorem length_le_total (p : Phs) (k : Fin 64) : p.slots[k].length ≤ p.total := by
  have h := sum_set (p.slots.toList.map Slot.length) k.val (by simp) 0
  have : (p.slots.toList.map Slot.length)[k.val]'(by simp) = p.slots[k].length := by simp
  unfold total
  omega

/-- The sum of all lengths that R130 checks is the one a declaration leaves. -/
theorem declare_totalWith (p : Phs) (k : Fin 64) (n : Nat) (c : BitVec 16) : (p.declare k n c).total = p.totalWith k n := by
  have h1 := p.declare_total k n c
  have h2 := p.length_le_total k
  unfold totalWith
  omega

theorem mem_insertAscending {x y : Nat} {l : List Nat} : y ∈ insertAscending x l ↔ y = x ∨ y ∈ l := by
  induction l with
  | nil => simp [insertAscending]
  | cons z zs ih =>
    unfold insertAscending
    split
    · simp
    · split
      · rename_i h; subst h; simp
      · simp only [List.mem_cons, ih]
        constructor
        · rintro (h | h | h) <;> simp [h]
        · rintro (h | h | h) <;> simp [h]

/-- The slots after a load: the loaded one has its index more, and a computed check once it is complete (R132, R133). -/
theorem load_slot (p : Phs) (k : Fin 64) (i : Nat) (bytes : List Byte) (j : Fin 64) :
    (p.load k i bytes).1.slots[j] =
      if k = j then
        { p.slots[k] with
          loaded := insertAscending i p.slots[k].loaded
          computed := if (p.stored k i bytes).complete k then some (crc16 ((p.stored k i bytes).phrase k)) else p.slots[k].computed }
      else p.slots[j] := by
  unfold load
  dsimp only
  by_cases hkj : k = j
  · subst hkj
    have e : (p.stored k i bytes).slots[k] = { p.slots[k] with loaded := insertAscending i p.slots[k].loaded } :=
      put_self _ _ _
    rw [if_pos rfl]
    split
    · show (put _ k _)[k] = _
      rw [put_self, e]
    · exact e
  · have e : (p.stored k i bytes).slots[j] = p.slots[j] := put_other _ _ hkj
    rw [if_neg hkj]
    split
    · show (put _ k _)[j] = _
      rw [put_other _ _ hkj, e]
    · exact e

@[simp] theorem load_storage (p : Phs) (k : Fin 64) (i : Nat) (bytes : List Byte) :
    (p.load k i bytes).1.storage = Memory.writeAll p.storage ((p.start k.val + i) * Config.blockBytes) bytes := by
  unfold load
  dsimp only
  split <;> rfl

/-- A load changes no length, so no sum of lengths. -/
theorem load_total (p : Phs) (k : Fin 64) (i : Nat) (bytes : List Byte) : (p.load k i bytes).1.total = p.total := by
  have h1 : (p.stored k i bytes).total = p.total := by
    have := total_put p.slots (Memory.writeAll p.storage ((p.start k.val + i) * Config.blockBytes) bytes) k
      { p.slots[k] with loaded := insertAscending i p.slots[k].loaded }
    unfold stored
    simp only [total] at this ⊢
    omega
  unfold load
  dsimp only
  split
  · rw [← h1]
    have := total_put (p.stored k i bytes).slots (p.stored k i bytes).storage k
      { (p.stored k i bytes).slots[k] with computed := some (crc16 ((p.stored k i bytes).phrase k)) }
    unfold checked
    simp only [total] at this ⊢
    omega
  · exact h1

end Phs

end Sys2Proof.Machine
end

