-- ==== Sys2Proof/Laws/Tables.lean ====
section
/-! SUPPORT. Tables and sets (5.4): what an entry of a table, a member of a set and a summary over a table are. -/
namespace Sys2Proof.Machine

theorem anyOf_iff {α : Type} {n : Nat} (v : Vector α n) (p : α → Bool) : anyOf v p = true ↔ ∃ i : Fin n, p v[i] = true := by
  simp [anyOf]

theorem anyOf_eq_false {α : Type} {n : Nat} (v : Vector α n) (p : α → Bool) :
    anyOf v p = false ↔ ∀ i : Fin n, p v[i] = false := by
  simp [anyOf]

theorem someShutter_iff (s : Store) (p : Shutter → Bool) :
    s.someShutter p = true ↔ ∃ (i : Fin 16) (sh : Shutter), s.shc.stations[i] = some sh ∧ p sh = true := by
  unfold Store.someShutter
  rw [anyOf_iff]
  constructor
  · rintro ⟨i, h⟩
    cases hs : s.shc.stations[i] with
    | none => rw [hs] at h; simp at h
    | some sh => rw [hs] at h; exact ⟨i, sh, hs, by simpa using h⟩
  · rintro ⟨i, sh, h, hp⟩
    exact ⟨i, by rw [h]; simpa using hp⟩

theorem someShutter_eq_false (s : Store) (p : Shutter → Bool) :
    s.someShutter p = false ↔ ∀ (i : Fin 16) (sh : Shutter), s.shc.stations[i] = some sh → p sh = false := by
  constructor
  · intro h i sh hs
    cases hp : p sh with
    | false => rfl
    | true => exact absurd ((someShutter_iff s p).mpr ⟨i, sh, hs, hp⟩) (by simp [h])
  · intro h
    cases hp : s.someShutter p with
    | false => rfl
    | true =>
      obtain ⟨i, sh, hs, hq⟩ := (someShutter_iff s p).mp hp
      rw [h i sh hs] at hq
      exact absurd hq (by decide)

theorem getLsbD_adjoin {n : Nat} (s : BitVec n) (m i : Nat) (hm : m < n) :
    (adjoin s m).getLsbD i = (s.getLsbD i || decide (i = m)) := by
  unfold adjoin
  rw [BitVec.getLsbD_or, BitVec.getLsbD_ofNat, Nat.testBit_two_pow]
  by_cases h : i = m
  · subst h; simp [hm]
  · simp [h, Ne.symm h]

theorem getLsbD_strike {n : Nat} (s : BitVec n) (m i : Nat) : (strike s m).getLsbD i = (s.getLsbD i && !decide (i = m)) := by
  unfold strike
  rw [BitVec.getLsbD_and, BitVec.getLsbD_not, BitVec.getLsbD_ofNat, Nat.testBit_two_pow]
  by_cases hi : i < n
  · by_cases h : i = m
    · subst h; simp [hi]
    · simp [h, Ne.symm h, hi]
  · simp [BitVec.getLsbD_of_ge s i (by omega)]

theorem getLsbD_setOf {n : Nat} (p : Fin n → Bool) (i : Fin n) : (setOf n p).getLsbD i.val = p i := by
  have key : ∀ (xs : List (Fin n)) (s : BitVec n),
      (xs.foldl (fun s m => if p m then adjoin s m.val else s) s).getLsbD i.val =
        (s.getLsbD i.val || (p i && decide (i ∈ xs))) := by
    intro xs
    induction xs with
    | nil => simp
    | cons x xs ih =>
      intro s
      rw [List.foldl_cons, ih]
      by_cases hx : i = x
      · subst hx
        by_cases hp : p i = true
        · simp [hp, getLsbD_adjoin _ _ _ i.isLt]
        · simp [hp]
      · have hv : i.val ≠ x.val := fun h => hx (Fin.ext h)
        have ha : (adjoin s x.val).getLsbD i.val = s.getLsbD i.val := by
          rw [getLsbD_adjoin _ _ _ x.isLt]; simp [hv]
        by_cases hp : p x = true
        · rw [if_pos hp, ha]; simp [hx]
        · rw [if_neg hp]; simp [hx]
  unfold setOf
  rw [key]
  simp [List.mem_finRange]

end Sys2Proof.Machine
end

