-- ==== Sys2Proof/Laws/Checks.lean ====
section
/-! SUPPORT. The check tables as the statements write them out again: the first check a block fails is the refusal that
Safety.lean names (R34, R50, R111, R141), and a cause input is active where NoCauseInput fails (R41). -/
namespace Sys2Proof.Machine

@[simp] theorem firstFailure_nil : firstFailure [] = none := rfl

theorem firstFailure_cons (holds : Bool) (r : Reason) (rest : List (Bool × Reason)) :
    firstFailure ((holds, r) :: rest) = if holds then firstFailure rest else some r := rfl

/-- The refusal a list of checks comes to (5.9). -/
theorem OrderResult.after_failed {checks : List (Bool × Reason)} {ok : OrderResult} {r : Reason}
    (h : firstFailure checks = some r) : OrderResult.after checks ok = .refused r [] := by
  simp [OrderResult.after, h]

/-- The result of checks that all hold. -/
theorem OrderResult.after_passed {checks : List (Bool × Reason)} {ok : OrderResult} (h : firstFailure checks = none) :
    OrderResult.after checks ok = ok := by
  simp [OrderResult.after, h]

/-- No line of a set is active at a present landing exactly where the two sets share no member. -/
theorem present_eq_zero (x : BitVec 8) (p : Fin 8 → Bool) :
    (x &&& setOf 8 p) = 0 ↔ ∀ l : Fin 8, p l = true → x.getLsbD l.val = false := by
  constructor
  · intro h l hp
    have e : (x &&& setOf 8 p).getLsbD l.val = false := by rw [h]; simp
    rw [BitVec.getLsbD_and, getLsbD_setOf, hp, Bool.and_true] at e
    exact e
  · intro h
    refine BitVec.eq_of_getLsbD_eq fun i hi => ?_
    have e := getLsbD_setOf p ⟨i, hi⟩
    have hl := h ⟨i, hi⟩
    rw [BitVec.getLsbD_and]
    simp only at e hl
    rw [e]
    cases hp : p ⟨i, hi⟩
    · simp
    · simp [hl hp]

/-- A cause input is active (R41). -/
theorem causeActive_eq_false (s : State) : (Ev.begin s.toEnv s.toStore).causeActive = false ↔ s.NoCauseInput := by
  unfold Ev.causeActive Ev.activeCords Ev.activeGuards Ev.presentLandings
  simp only [Bool.or_eq_false_iff, bne_eq_false_iff_eq, present_eq_zero]
  constructor
  · rintro ⟨⟨h1, h2⟩, h3⟩; exact ⟨h3, fun l p => ⟨h1 l p, h2 l p⟩⟩
  · rintro ⟨h3, h⟩; exact ⟨⟨fun l p => (h l p).1, fun l p => (h l p).2⟩, h3⟩

/-- One check of a table against one line of the refusal written out for it. -/
theorem firstFailure_step {holds : Bool} {r : Reason} {rest : List (Bool × Reason)} {p : Prop} [Decidable p]
    {out : Option Reason} (h : holds = false ↔ p) (t : ¬ p → firstFailure rest = out) :
    firstFailure ((holds, r) :: rest) = if p then some r else out := by
  rw [firstFailure_cons]
  by_cases hp : p
  · rw [if_pos hp, h.mpr hp]; rfl
  · rw [if_neg hp, (Bool.not_eq_false holds).mp fun c => hp (h.mp c), if_pos rfl, t hp]

/-- The source is one of two. -/
theorem onReserve_eq_false (s : Store) : (!s.onReserve) = false ↔ s.msu.source = .reserve := by
  simp [Store.onReserve]

/-- The start conditions of a survey (R34). -/
theorem surveyChecks_first (s : State) : firstFailure (Ev.begin s.toEnv s.toStore).surveyChecks = s.surveyRefusal := by
  have hp : s.cht.someLanding = false ↔ ∀ l : Fin 8, s.cht.landings[l].present = false := anyOf_eq_false _ _
  unfold Ev.surveyChecks State.surveyRefusal
  refine firstFailure_step Iff.rfl fun _ => firstFailure_step ?_ fun _ => firstFailure_step ?_ fun _ =>
    firstFailure_step ?_ fun _ => firstFailure_step (onReserve_eq_false _) fun _ => firstFailure_step ?_ fun _ => ?_
  · simp [Ev.begin, Option.isNone_eq_false_iff, Option.isSome_iff_ne_none]
  · simp [Ev.begin]
  · simp [Ev.begin]
  · show (decide (0 < s.cht.settings.loopLength) && decide (0 < s.cht.settings.cars) && s.cht.someLanding) = false ↔ _
    rw [← hp, Bool.and_eq_false_iff, Bool.and_eq_false_iff, decide_eq_false_iff_not, decide_eq_false_iff_not,
      Nat.not_lt, Nat.not_lt, Nat.le_zero, Nat.le_zero, or_assoc]
  · by_cases h : s.pnc.state = .halted <;> by_cases h' : s.allLinkedOpen = false <;>
      cases hd : s.lines.drvReady <;> simp_all [Ev.begin, firstFailure]

/-- The checks of a sweep, out of NIGHT_LOCK (R50). -/
theorem sweepChecks_first {s : State} (h : s.pnc.state ≠ .nightLock) :
    firstFailure (Ev.begin s.toEnv s.toStore).sweepChecks = s.pnSweepRefusal := by
  unfold Ev.sweepChecks State.pnSweepRefusal State.sweepRefusal
  rw [if_neg h]
  refine firstFailure_step ?_ fun hs => firstFailure_step ?_ fun _ => firstFailure_step ?_ fun _ => ?_
  · simp [Ev.begin]
  · cases e : s.msu.mode <;> simp [Ev.begin, e]
  · simp [Ev.begin]
  rw [if_neg hs]
  refine firstFailure_step (onReserve_eq_false _) fun _ => firstFailure_step ?_ fun _ => firstFailure_step Iff.rfl fun _ => ?_
  · show (s.cht.position.isSome && !s.cht.clearList.isEmpty) = false ↔ _
    cases s.cht.position <;> simp
  have hc := causeActive_eq_false s
  cases h' : s.allLinkedOpen with
  | false => simp [firstFailure, h']
  | true =>
    by_cases hn : s.NoCauseInput
    · rw [if_neg (by rintro (x | x); exacts [absurd x (by decide), x hn])]
      simp [firstFailure, hc.mpr hn, h']
    · rw [if_pos (.inr hn)]
      simp [firstFailure, (Bool.not_eq_false _).mp fun x => hn (hc.mp x), h']

/-- The checks of an announcement's post (R141). -/
theorem announceChecks_first (s : State) (k : Fin 16) (cls : AnnClass) (sp : BitVec 8) :
    firstFailure ((Ev.begin s.toEnv s.toStore).announceChecks k cls sp) = s.announceRefusal k cls sp := by
  unfold Ev.announceChecks State.announceRefusal
  refine firstFailure_step ?_ fun _ => firstFailure_step ?_ fun _ => firstFailure_step ?_ fun _ =>
    firstFailure_step ?_ fun _ => firstFailure_step ?_ fun _ => firstFailure_step ?_ fun _ => rfl
  · simp [Ev.speakersFor, Ev.begin]
  · simp [Ev.begin]
  · cases e : s.msu.mode <;> cases cls <;> simp [Ev.begin, e, Ev.annAdmitted]
  · simp [Ev.begin, Store.ampPermitted, Store.onReserve]
  · simp [Ev.begin]
  · exact decide_eq_false_iff_not.trans Nat.not_lt

/-- The checks of a call's post before the merge and the room (R111). -/
theorem postChecks_first (s : State) (p : Post) :
    s.callRefusal p = match firstFailure ((Ev.begin s.toEnv s.toStore).postChecks p) with
      | some r => some r
      | none => if s.blx.merge p = none ∧ 16 ≤ s.blx.calls.length then some .full else none := by
  have key : ∀ (xs : List (Bool × Reason)) (out : Option Reason), firstFailure (xs ++ [(!(decide
      (s.blx.merge p = none ∧ 16 ≤ s.blx.calls.length)), .full)]) = out →
      out = match firstFailure xs with
        | some r => some r
        | none => if s.blx.merge p = none ∧ 16 ≤ s.blx.calls.length then some .full else none := by
    intro xs
    induction xs with
    | nil => intro out h; rw [← h]; by_cases c : s.blx.merge p = none ∧ 16 ≤ s.blx.calls.length <;> simp [firstFailure, c]
    | cons x xs ih =>
      intro out h
      obtain ⟨b, r⟩ := x
      cases b
      · rw [← h]; rfl
      · exact ih out h
  refine key _ _ ?_
  unfold Ev.postChecks State.callRefusal
  refine firstFailure_step ?_ fun _ => firstFailure_step ?_ fun _ => firstFailure_step ?_ fun _ =>
    firstFailure_step ?_ fun _ => rfl
  · cases p.cls <;> cases p.escalate <;> simp [Ev.begin, Body.within, or_assoc, imp_iff_not_or]
  · cases e : s.msu.mode <;> cases p.cls <;> simp [Ev.begin, e, CallClass.admitted]
  · cases p.cls <;> simp [Ev.begin, Store.bellPermitted, Store.onReserve]
  · simp

end Sys2Proof.Machine
end

