-- ==== Sys2Proof/Laws/Choices.lean ====
section
/-! SUPPORT. What the choosing operations answer: a sorted list and the order of the clear list (R31, R32), the choice of a
target (R42), the next free number (R109, R140), the first call a ringer can serve (R115), and what a script comes to next (R143). -/
namespace Sys2Proof.Machine

/-! ## Sorting -/

theorem insertBy_perm {α : Type} (key : α → Int) (x : α) (ys : List α) : (insertBy key x ys).Perm (x :: ys) := by
  induction ys with
  | nil => exact .refl _
  | cons y ys ih => unfold insertBy; split; exacts [.refl _, (ih.cons y).trans (.swap x y ys)]

/-- An entry inserted after those of its own key keeps a list in the order of its keys, and of `R` among equals. -/
theorem insertBy_ordered {α : Type} {key : α → Int} {R : α → α → Prop} {x : α} {ys : List α}
    (h : ys.Pairwise fun a b => key a < key b ∨ key a = key b ∧ R a b) (r : ∀ y ∈ ys, R y x) :
    (insertBy key x ys).Pairwise fun a b => key a < key b ∨ key a = key b ∧ R a b := by
  induction ys with
  | nil => simp [insertBy]
  | cons y ys ih =>
    obtain ⟨hy, hs⟩ := List.pairwise_cons.mp h
    unfold insertBy
    split
    · rename_i lt
      refine List.pairwise_cons.mpr ⟨fun b m => .inl ?_, h⟩
      rcases List.mem_cons.mp m with rfl | m
      · exact lt
      · rcases hy b m with c | c <;> omega
    · rename_i ge
      refine List.pairwise_cons.mpr ⟨fun b m => ?_, ih hs fun a m => r a (List.mem_cons_of_mem _ m)⟩
      rcases List.mem_cons.mp ((insertBy_perm key x ys).mem_iff.mp m) with rfl | m
      · rcases Int.lt_or_eq_of_le (Int.not_lt.mp ge) with c | c
        exacts [.inl c, .inr ⟨c, r y List.mem_cons_self⟩]
      · exact hy b m

/-- A sorted list holds what it was given. -/
theorem sortBy_perm {α : Type} (key : α → Int) (xs : List α) : (sortBy key xs).Perm xs := by
  suffices h : ∀ (xs acc : List α), (xs.foldl (fun ys x => insertBy key x ys) acc).Perm (acc ++ xs) from h xs []
  intro xs
  induction xs with
  | nil => intro acc; simp
  | cons x xs ih =>
    intro acc
    exact (ih _).trans (((insertBy_perm key x acc).append_right xs).trans List.perm_middle.symm)

/-- A sorted list stands in the order of its keys, and entries of equal key in the order they had. -/
theorem sortBy_ordered {α : Type} {key : α → Int} {R : α → α → Prop} {xs : List α} (h : xs.Pairwise R) :
    (sortBy key xs).Pairwise fun a b => key a < key b ∨ key a = key b ∧ R a b := by
  suffices g : ∀ (xs acc : List α), xs.Pairwise R → (∀ a ∈ acc, ∀ x ∈ xs, R a x) →
      acc.Pairwise (fun a b => key a < key b ∨ key a = key b ∧ R a b) →
      (xs.foldl (fun ys x => insertBy key x ys) acc).Pairwise fun a b => key a < key b ∨ key a = key b ∧ R a b from
    g xs [] h (by simp) List.Pairwise.nil
  intro xs
  induction xs with
  | nil => intro acc _ _ hs; exact hs
  | cons x xs ih =>
    intro acc hx ha hs
    obtain ⟨h1, h2⟩ := List.pairwise_cons.mp hx
    refine ih _ h2 (fun a m y hy => ?_) (insertBy_ordered hs fun y m => ha y m x List.mem_cons_self)
    rcases List.mem_cons.mp ((insertBy_perm key x acc).mem_iff.mp m) with rfl | m
    exacts [h1 y hy, ha a m y (List.mem_cons_of_mem _ hy)]

/-! ## The order of the clear list (R31, R32) -/

namespace Cht

theorem inOrder_perm (es : List ClearEntry) : (inOrder es).Perm es := (sortBy_perm _ _).trans (sortBy_perm _ _)

/-- Each entry of the walk comes before those that follow it: the larger clear set, then the lower position. -/
theorem inOrder_ordered (es : List ClearEntry) : (inOrder es).Pairwise ClearEntry.Before := by
  have inner : (sortBy (fun e : ClearEntry => (e.pos : Int)) es).Pairwise fun a b => a.pos ≤ b.pos :=
    (sortBy_ordered (R := fun _ _ => True) (List.pairwise_of_forall fun _ _ => trivial)).imp fun h => by omega
  refine (sortBy_ordered (key := fun e : ClearEntry => -(card e.set : Int)) inner).imp fun {a b} h => ?_
  rcases h with h | ⟨h, h'⟩
  · exact .inl (by omega)
  · exact .inr ⟨by omega, h'⟩

/-- The best rest position comes before every entry of the clear list (R32). -/
theorem bestRest_before {c : Cht} {b : ClearEntry} (h : c.bestRest = some b) :
    b ∈ c.clearList ∧ ∀ e ∈ c.clearList, b.Before e := by
  obtain ⟨xs, e⟩ := List.head?_eq_some_iff.mp h
  have o := inOrder_ordered c.clearList
  rw [e] at o
  refine ⟨(inOrder_perm _).mem_iff.mp (by rw [e]; exact List.mem_cons_self), fun x m => ?_⟩
  rw [← (inOrder_perm _).mem_iff, e] at m
  rcases List.mem_cons.mp m with rfl | m
  exacts [.inr ⟨rfl, Nat.le_refl _⟩, (List.pairwise_cons.mp o).1 x m]

end Cht

/-! ## Choosing a target (R32, R42) -/

/-- Nothing is chosen exactly from nothing. -/
theorem argMin_none {α : Type} {k : α → Nat} {xs : List α} : argMin k xs = none ↔ xs = [] := by
  cases xs with
  | nil => simp [argMin]
  | cons x xs => simp only [argMin]; split <;> (try split) <;> simp

/-- What is chosen stands in the list, and nothing of the list has a smaller key. -/
theorem argMin_some {α : Type} {k : α → Nat} {xs : List α} {x : α} (h : argMin k xs = some x) :
    x ∈ xs ∧ ∀ y ∈ xs, k x ≤ k y := by
  induction xs generalizing x with
  | nil => simp [argMin] at h
  | cons a xs ih =>
    simp only [argMin] at h
    split at h
    · rename_i e
      rw [argMin_none] at e
      subst e
      simp at h
      subst h
      simp
    · rename_i y e
      obtain ⟨m, l⟩ := ih e
      split at h <;> simp at h <;> subst h
      · refine ⟨.tail _ m, ?_⟩
        intro z hz
        rcases List.mem_cons.mp hz with rfl | hz
        · omega
        · exact l z hz
      · refine ⟨.head _, ?_⟩
        intro z hz
        rcases List.mem_cons.mp hz with rfl | hz
        · omega
        · have := l z hz; omega

/-- There is no best rest position exactly with an empty clear list (R32). -/
theorem Cht.bestRest_none {c : Cht} : c.bestRest = none ↔ c.clearList = [] := by
  unfold Cht.bestRest
  rw [List.head?_eq_none_iff]
  constructor
  · intro h
    have := Cht.inOrder_perm c.clearList
    rw [h] at this
    exact this.symm.eq_nil
  · intro h; rw [h]; rfl

/-- The sweep re-target rule chooses nothing exactly from an empty clear list (R42). -/
theorem Store.sweepRetarget_none {s : Store} {p : Nat} : s.sweepRetarget p = none ↔ s.cht.clearList = [] := by
  unfold Store.sweepRetarget
  split
  · rename_i h
    simp [Cht.bestRest_none.mp h]
  · rename_i b h
    have hm := (Cht.bestRest_before h).1
    simp only [Option.map_eq_none_iff, argMin_none]
    constructor
    · intro e
      have := List.filter_eq_nil_iff.mp e b hm
      simp at this
    · intro e; simp [e]

/-! ## Numbers -/

/-- One more than `k` on from a number is `k` on from the number after it, 1 following 255. -/
theorem number_after {n k : Nat} (h : 1 ≤ n) (h' : n ≤ 255) :
    (n - 1 + (k + 1)) % 255 + 1 = ((if n < 255 then n + 1 else 1) - 1 + k) % 255 + 1 := by
  split <;> omega

/-- The number given is the first from `n` on that is not used, as far as the search goes. -/
theorem freeNumber_first (used : List Nat) (fuel n : Nat) (h : 1 ≤ n) (h' : n ≤ 255) :
    ∃ k ≤ fuel, freeNumber used fuel n = (n - 1 + k) % 255 + 1 ∧ (∀ j < k, (n - 1 + j) % 255 + 1 ∈ used) ∧
      (k < fuel → freeNumber used fuel n ∉ used) := by
  induction fuel generalizing n with
  | zero => exact ⟨0, Nat.le_refl _, by rw [freeNumber]; omega, by omega, by omega⟩
  | succ fuel ih =>
    rw [freeNumber]
    by_cases u : used.contains n = true
    · obtain ⟨k, hk, e, hu, hf⟩ := ih (if n < 255 then n + 1 else 1) (by split <;> omega) (by split <;> omega)
      simp only [u, if_true]
      refine ⟨k + 1, by omega, by rw [e, number_after h h'], fun j hj => ?_, fun hk' => hf (by omega)⟩
      cases j with
      | zero => rw [show (n - 1 + 0) % 255 + 1 = n by omega]; exact List.contains_iff_mem.mp u
      | succ j => rw [number_after h h']; exact hu j (by omega)
    · simp only [u]
      exact ⟨0, by omega, by simp; omega, by omega, fun _ m => u (List.contains_iff_mem.mpr m)⟩

/-- The number after one is the next from it, wrapping. -/
theorem nextNumber_eq {n : Nat} (h : 1 ≤ n) (h' : n ≤ 255) : nextNumber n = n % 255 + 1 := by
  unfold nextNumber; split <;> omega

namespace Blx

/-- No call is found exactly where each wants a line that is taken. -/
theorem pick_none {taken : BitVec 10} {q : List Call} : pick taken q = none ↔ ∀ c ∈ q, c.lines &&& taken ≠ 0 := by
  induction q with
  | nil => simp [pick]
  | cons c q ih => unfold pick; split <;> simp_all

/-- The call found is the first whose lines are free; the others keep their order. -/
theorem pick_first {taken : BitVec 10} {pre post : List Call} {c : Call} (h : ∀ x ∈ pre, x.lines &&& taken ≠ 0)
    (hc : c.lines &&& taken = 0) : pick taken (pre ++ c :: post) = some (c, pre ++ post) := by
  induction pre with
  | nil => simp [pick, hc]
  | cons x pre ih =>
    have hx := h x (by simp)
    rw [List.cons_append, pick, if_neg hx, ih fun y m => h y (by simp [m])]; rfl

/-- A ringer that holds a call takes no other. -/
theorem assignOne_held {b : Blx} {r : Fin 3} (h : b.ringers[r].held ≠ none) : b.assignOne r = b := by
  unfold assignOne; rw [if_pos (Option.isSome_iff_ne_none.mpr h)]

end Blx

/-! ## A script from one item on -/

/-- An item whose repeats are done gives way to the next. -/
theorem seek_done {ready : Nat → Bool} {it : Item} {rest : List Item} {i rep : Nat} {sk : Skip} (h : it.repeats ≤ rep) :
    seek ready (it :: rest) i rep sk = seek ready rest (i + 1) 0 sk := by
  rw [seek, if_pos h]

/-- An item whose slot is READY sounds. -/
theorem seek_ready {ready : Nat → Bool} {it : Item} {rest : List Item} {i rep : Nat} {sk : Skip} (h : rep < it.repeats)
    (hr : ready it.slot = true) : seek ready (it :: rest) i rep sk = (some (i, rep, it.slot), sk) := by
  rw [seek, if_neg (by omega), if_pos hr]

/-- An item whose slot is not READY is noted and gives way to the next. -/
theorem seek_skipped {ready : Nat → Bool} {it : Item} {rest : List Item} {i rep : Nat} {sk : Skip} (h : rep < it.repeats)
    (hr : ready it.slot = false) :
    seek ready (it :: rest) i rep sk = seek ready rest (i + 1) 0 { sk with items := adjoin sk.items i } := by
  rw [seek, if_neg (by omega), if_neg (by simp [hr])]

/-- Nothing is passed over from an item to itself. -/
@[simp] theorem State.skipping_self (s : State) (i rep : Nat) (sk : Skip) : s.skipping i rep i sk = sk := by
  simp [State.skipping]

end Sys2Proof.Machine
end

