-- ==== Sys2Proof/Laws/Queue.lean ====
section
/-! SUPPORT. No command touches the queue of waiting commands (log 1). -/
namespace Sys2Proof.Machine

@[simp] theorem restart_pending (k : RestartKind) (s : State) : (restart k s).pending = s.pending := by
  unfold restart
  dsimp only
  split <;> simp only [finish_pending]

@[simp] theorem event_pending (v : Env) (f : Ev → Ev) (s : State) : (event v f s).pending = s.pending := by
  unfold event
  simp only [finish_pending]

@[simp] theorem lineEvent_pending (l : Lines) (f : Ev → Ev) (s : State) : (lineEvent l f s).pending = s.pending :=
  event_pending _ _ _

@[simp] theorem event_toEnv (v : Env) (f : Ev → Ev) (s : State) : (event v f s).toEnv = v := by
  unfold event
  simp only [finish_toEnv]

@[simp] theorem lineEvent_toEnv (l : Lines) (f : Ev → Ev) (s : State) :
    (lineEvent l f s).toEnv = { s.toEnv with lines := l } := event_toEnv _ _ _

@[simp] theorem restart_powerOn_toEnv (s : State) : (restart .powerOn s).toEnv = .cold s.lines := by
  unfold restart
  simp only [finish_toEnv]

@[simp] theorem restart_cold_toEnv (s : State) : (restart .cold s).toEnv = .cold s.lines := by
  unfold restart
  simp only [finish_toEnv]

@[simp] theorem restart_warm_toEnv (s : State) : (restart .warm s).toEnv = s.toEnv := by
  unfold restart
  simp only [finish_toEnv]

@[simp] theorem settleOrder_pending (o : RxOrder) (r : OrderResult) (s : State) :
    (settleOrder o r s).pending = s.pending := by
  cases r <;> simp [settleOrder]

@[simp] theorem takeOrder_pending (o : RxOrder) (s : State) : (takeOrder o s).pending = s.pending := by
  unfold takeOrder takeStatus
  (repeat' split) <;> simp

@[simp] theorem intake_pending (n : Nat) (s : State) : (intake n s).pending = s.pending := by
  induction n generalizing s with
  | zero => rfl
  | succ n ih =>
    unfold intake
    (repeat' split) <;> simp [ih]

@[simp] theorem takeOrders_pending (s : State) : (takeOrders s).pending = s.pending := intake_pending _ _

@[simp] theorem arrive_pending (o : RxOrder) (s : State) : (arrive o s).pending = s.pending := by
  unfold arrive
  dsimp only
  split <;> simp

@[simp] theorem receiveByte_pending (b : Byte) (s : State) : (receiveByte b s).pending = s.pending := by
  unfold receiveByte
  (repeat' split) <;> simp

@[simp] theorem receiveAll_pending (bs : List Byte) (s : State) : (receiveAll bs s).pending = s.pending := by
  unfold receiveAll
  induction bs generalizing s with
  | nil => rfl
  | cons b bs ih => simp [ih]

@[simp] theorem frameSent_pending (s : State) : (frameSent s).pending = s.pending := by
  unfold frameSent
  split <;> simp

@[simp] theorem tick_pending (s : State) : (tick s).pending = s.pending := by
  unfold tick
  dsimp only
  split <;> simp

end Sys2Proof.Machine
end

