-- ==== Sys2Proof/Laws/Exec.lean ====
section
/-! SUPPORT. What a command can do, said once: the few forms every meaning takes, so that a property of all steps is a
property of these forms. -/
namespace Sys2Proof.Machine

/-- What a field event does to the blocks, for each row that is one. -/
inductive FieldEvent : (Ev → Ev) → Prop where
  | toReserve : FieldEvent Ev.toReserve
  | toMains : FieldEvent Ev.toMains
  | batteryLow : FieldEvent Ev.batteryLow
  | batteryGood : FieldEvent Ev.batteryGood
  | staffKeyTurned : FieldEvent Ev.staffKeyTurned
  | keyTurned (active : Bool) : FieldEvent (Ev.keyTurned active)
  | encoderStep : FieldEvent Ev.encoderStep
  | indexEdge : FieldEvent Ev.indexEdge
  | sillEdge (l : Fin 8) (side : Side) : FieldEvent (Ev.sillEdge l side)
  | settleOut : FieldEvent Ev.settleOut
  | landingCause (l : Fin 8) (c : Cause) : FieldEvent (Ev.landingCause l c)
  | estop (c : Cause) : FieldEvent (Ev.estop c)
  | driveReady : FieldEvent Ev.driveReady
  | startOut : FieldEvent Ev.startOut
  | creepOut : FieldEvent Ev.creepOut
  | surveyOut : FieldEvent Ev.surveyOut
  | openLimActive (i : Fin 16) : FieldEvent (Ev.openLimActive i)
  | openLimInactive (i : Fin 16) : FieldEvent (Ev.openLimInactive i)
  | closedLimActive (i : Fin 16) : FieldEvent (Ev.closedLimActive i)
  | closedLimInactive (i : Fin 16) : FieldEvent (Ev.closedLimInactive i)
  | edgeStruck (i : Fin 16) : FieldEvent (Ev.edgeStruck i)
  | edgeCleared (i : Fin 16) : FieldEvent (Ev.edgeCleared i)
  | descentOut (i : Fin 16) : FieldEvent (Ev.descentOut i)
  | magnetOut (i : Fin 16) : FieldEvent (Ev.magnetOut i)
  | edgeClearOut (i : Fin 16) : FieldEvent (Ev.edgeClearOut i)
  | raiseOut (i : Fin 16) : FieldEvent (Ev.raiseOut i)
  | zoneSounds (z : Fin 6) : FieldEvent (Ev.zoneSounds z)
  | zoneSilent (z : Fin 6) : FieldEvent (Ev.zoneSilent z)
  | deadlineOut : FieldEvent Ev.deadlineOut
  | holdOut : FieldEvent Ev.holdOut
  | roundComplete (r : Fin 3) : FieldEvent (Ev.roundComplete r)
  | clearGuard (r : Fin 3) : FieldEvent (Ev.clearGuard r)
  | gapEnd (r : Fin 3) : FieldEvent (Ev.gapEnd r)
  | windowOut (r : Fin 3) : FieldEvent (Ev.windowOut r)
  | answered (l : Fin 10) : FieldEvent (Ev.answered l)
  | preparingEnd : FieldEvent Ev.preparingEnd
  | blockEnd : FieldEvent Ev.blockEnd
  | gapDone : FieldEvent Ev.gapDone
  | firePauseDone : FieldEvent Ev.firePauseDone
  | strokeEnd (r : Fin 3) : FieldEvent (Ev.strokeEnd r)

/-- The forms of what a command makes of a state. -/
inductive Effect (s : State) : State → Prop where
  | none : Effect s s
  | arrive (o : RxOrder) : Effect s (arrive o s)
  | receiveAll (bs : List Byte) : Effect s (receiveAll bs s)
  | dropReception : Effect s (dropReception s)
  | frameSent : Effect s (frameSent s)
  | restart (k : RestartKind) (l : Lines) : Effect s (restart k (s.atLines l))
  | event (l : Lines) (f : Ev → Ev) (h : FieldEvent f) : Effect s (lineEvent l f s)
  | tick : Effect s (tick s)
  | trimPeriod : Effect s (trimPeriodEnds s)
  | timebase (crystal : Bool) (t : Tmb) (h : t.cal = s.tmb.cal) : Effect s (timebaseChange crystal t s)
  | lines (l : Lines) : Effect s (s.atLines l)

theorem event_effect {s : State} {f : Ev → Ev} (h : FieldEvent f) : Effect s (event s.toEnv f s) :=
  .event s.lines f h

theorem crystal_effect {s : State} : Effect s (crystalStops s) := .timebase _ _ rfl

theorem crystal_effect' {s : State} : Effect s (crystalResumes s) := .timebase _ _ rfl

/-- Every command has one of the forms. -/
theorem exec_effect (c : Instr) (s : State) : ∃ t, exec c s = .next t ∧ Effect s t := by
  cases c <;> refine ⟨_, rfl, ?_⟩ <;>
  first
  | with_reducible exact .arrive _
  | with_reducible exact .receiveAll _
  | with_reducible exact .frameSent
  | with_reducible exact .dropReception
  | with_reducible exact .tick
  | with_reducible exact .trimPeriod
  | with_reducible exact .lines _
  | with_reducible exact event_effect (by constructor)
  | (split <;> first | with_reducible exact .none | with_reducible exact .restart _ _ | with_reducible exact crystal_effect | with_reducible exact crystal_effect' | with_reducible exact .event _ _ (by constructor))
  | (unfold tickWhen; split <;> first | with_reducible exact .tick | with_reducible exact .none)
  | (unfold badLength; (repeat' split) <;> first | with_reducible exact .none | with_reducible exact .dropReception)
  | exact .restart .powerOn s.lines

/-- A step makes of the state, its front command taken, one of the forms; with none waiting it changes nothing. -/
theorem step_effect {s t : State} (h : step s = .next t) : Effect { s with pending := s.pending.tail } t := by
  unfold step at h
  split at h
  · rename_i hp
    have : t = s := (Host.Outcome.next.inj h).symm
    subst this
    have e : ({ t with pending := t.pending.tail } : State) = t := by
      obtain ⟨a, b, c, p⟩ := t
      simp only at hp
      subst hp
      rfl
    rw [e]
    exact .none
  · rename_i c rest hp
    obtain ⟨u, hu, he⟩ := exec_effect c { s with pending := rest }
    rw [hu] at h
    have : u = t := Host.Outcome.next.inj h
    subst this
    rw [hp]
    exact he

end Sys2Proof.Machine
end

