-- ==== Sys2Proof/Laws/Frames.lean ====
section
/-! SUPPORT. What each claim of the blocks leaves unchanged: one frame lemma for each, from the plain claims up to the end of an
event. -/
namespace Sys2Proof.Machine

set_option linter.unusedSimpArgs false

@[simp] theorem Anp.silent_scripts (a : Anp) : a.silent.scripts = a.scripts := rfl

namespace Blx

@[simp] theorem setRinger_present (b : Blx) (r : Fin 3) (x : Ringer) : (b.setRinger r x).present = b.present := rfl
@[simp] theorem giveUp_present (b : Blx) (r : Fin 3) : (b.giveUp r).present = b.present := rfl
@[simp] theorem enrol_present (p : Post) (b : Blx) : (b.enrol p).2.present = b.present := rfl

theorem foldl_present {α : Type} (xs : List α) (f : Blx → α → Blx) (b : Blx) (h : ∀ b x, (f b x).present = b.present) :
    (xs.foldl f b).present = b.present := by
  induction xs generalizing b with
  | nil => rfl
  | cons x xs ih => exact (ih _).trans (h b x)

@[simp] theorem restand_present (k : Ringing) (l : BitVec 10) (b : Blx) : (restand k l b).present = b.present := by
  unfold restand; (repeat' split) <;> simp

@[simp] theorem stand_present (k : Ringing) (l : BitVec 10) (st : Stroke) (b : Blx) :
    (stand k l st b).present = b.present := by
  unfold stand; (repeat' split) <;> simp

@[simp] theorem rebuild_present (x y : BitVec 10) (c : BellCode) (b : Blx) : (rebuild x y c b).present = b.present := by
  simp only [rebuild]; rw [foldl_present _ _ _ giveUp_present]; simp

@[simp] theorem dismiss_present (b : Blx) : b.dismiss.present = b.present := by
  unfold dismiss; apply foldl_present; intro b r; split <;> simp

@[simp] theorem assign_present (b : Blx) : b.assign.present = b.present := by
  unfold assign; apply foldl_present; intro b r; unfold assignOne; (repeat' split) <;> rfl

theorem merge_present {p : Post} {b b' : Blx} {n : Nat} (h : b.merge p = some (n, b')) : b'.present = b.present := by
  unfold merge at h
  (repeat' split at h) <;> simp at h
  · obtain ⟨_, rfl⟩ := h; rfl
  · obtain ⟨_, _, _, rfl⟩ := h; rfl

end Blx

namespace Ev

theorem when_app {α : Type} (g : Ev → α) (c : Bool) (f : Ev → Ev) (e : Ev) :
    g (e.when c f) = if c then g (f e) else g e := by
  cases c <;> rfl

theorem forEach_app {α β : Type} (g : Ev → α) (xs : List β) (f : β → Ev → Ev) (e : Ev)
    (h : ∀ x e, g (f x e) = g e) : g (e.forEach xs f) = g e := by
  unfold forEach
  induction xs generalizing e with
  | nil => rfl
  | cons x xs ih => exact (ih _).trans (h x e)

theorem fst_app {α β γ : Type} (g : Ev → α) (xs : List β) (f : Ev × γ → β → Ev × γ) (r : Ev × γ)
    (h : ∀ r x, g (f r x).1 = g r.1) : g (xs.foldl f r).1 = g r.1 := by
  induction xs generalizing r with
  | nil => rfl
  | cons x xs ih => exact (ih _).trans (h r x)

@[simp] theorem when_toEnv (c : Bool) (f : Ev → Ev) (e : Ev) :
    (e.when c f).toEnv = if c then (f e).toEnv else e.toEnv := when_app (·.toEnv) c f e
@[simp] theorem when_msu (c : Bool) (f : Ev → Ev) (e : Ev) :
    (e.when c f).msu = if c then (f e).msu else e.msu := when_app (·.msu) c f e
@[simp] theorem when_cht (c : Bool) (f : Ev → Ev) (e : Ev) :
    (e.when c f).cht = if c then (f e).cht else e.cht := when_app (·.cht) c f e
@[simp] theorem when_pnc (c : Bool) (f : Ev → Ev) (e : Ev) :
    (e.when c f).pnc = if c then (f e).pnc else e.pnc := when_app (·.pnc) c f e
@[simp] theorem when_shc (c : Bool) (f : Ev → Ev) (e : Ev) :
    (e.when c f).shc = if c then (f e).shc else e.shc := when_app (·.shc) c f e
@[simp] theorem when_fzu (c : Bool) (f : Ev → Ev) (e : Ev) :
    (e.when c f).fzu = if c then (f e).fzu else e.fzu := when_app (·.fzu) c f e
@[simp] theorem when_blx (c : Bool) (f : Ev → Ev) (e : Ev) :
    (e.when c f).blx = if c then (f e).blx else e.blx := when_app (·.blx) c f e
@[simp] theorem when_anp (c : Bool) (f : Ev → Ev) (e : Ev) :
    (e.when c f).anp = if c then (f e).anp else e.anp := when_app (·.anp) c f e
@[simp] theorem when_stamps (c : Bool) (f : Ev → Ev) (e : Ev) :
    (e.when c f).stamps = if c then (f e).stamps else e.stamps := when_app (·.stamps) c f e
@[simp] theorem when_cpu (c : Bool) (f : Ev → Ev) (e : Ev) :
    (e.when c f).cpu = if c then (f e).cpu else e.cpu := when_app (·.cpu) c f e
@[simp] theorem forEach_toEnv {α : Type} (xs : List α) (f : α → Ev → Ev) (e : Ev)
    (h : ∀ x e, (f x e).toEnv = e.toEnv) : (e.forEach xs f).toEnv = e.toEnv := forEach_app (·.toEnv) xs f e h
@[simp] theorem forEach_msu {α : Type} (xs : List α) (f : α → Ev → Ev) (e : Ev)
    (h : ∀ x e, (f x e).msu = e.msu) : (e.forEach xs f).msu = e.msu := forEach_app (·.msu) xs f e h
@[simp] theorem forEach_cht {α : Type} (xs : List α) (f : α → Ev → Ev) (e : Ev)
    (h : ∀ x e, (f x e).cht = e.cht) : (e.forEach xs f).cht = e.cht := forEach_app (·.cht) xs f e h
@[simp] theorem forEach_pnc {α : Type} (xs : List α) (f : α → Ev → Ev) (e : Ev)
    (h : ∀ x e, (f x e).pnc = e.pnc) : (e.forEach xs f).pnc = e.pnc := forEach_app (·.pnc) xs f e h
@[simp] theorem forEach_shc {α : Type} (xs : List α) (f : α → Ev → Ev) (e : Ev)
    (h : ∀ x e, (f x e).shc = e.shc) : (e.forEach xs f).shc = e.shc := forEach_app (·.shc) xs f e h
@[simp] theorem forEach_fzu {α : Type} (xs : List α) (f : α → Ev → Ev) (e : Ev)
    (h : ∀ x e, (f x e).fzu = e.fzu) : (e.forEach xs f).fzu = e.fzu := forEach_app (·.fzu) xs f e h
@[simp] theorem forEach_blx {α : Type} (xs : List α) (f : α → Ev → Ev) (e : Ev)
    (h : ∀ x e, (f x e).blx = e.blx) : (e.forEach xs f).blx = e.blx := forEach_app (·.blx) xs f e h
@[simp] theorem forEach_anp {α : Type} (xs : List α) (f : α → Ev → Ev) (e : Ev)
    (h : ∀ x e, (f x e).anp = e.anp) : (e.forEach xs f).anp = e.anp := forEach_app (·.anp) xs f e h
@[simp] theorem forEach_stamps {α : Type} (xs : List α) (f : α → Ev → Ev) (e : Ev)
    (h : ∀ x e, (f x e).stamps = e.stamps) : (e.forEach xs f).stamps = e.stamps := forEach_app (·.stamps) xs f e h
@[simp] theorem forEach_cpu {α : Type} (xs : List α) (f : α → Ev → Ev) (e : Ev)
    (h : ∀ x e, (f x e).cpu = e.cpu) : (e.forEach xs f).cpu = e.cpu := forEach_app (·.cpu) xs f e h
@[simp] theorem forEach_msu_mode {α : Type} (xs : List α) (f : α → Ev → Ev) (e : Ev)
    (h : ∀ x e, (f x e).msu.mode = e.msu.mode) : (e.forEach xs f).msu.mode = e.msu.mode := forEach_app (·.msu.mode) xs f e h
@[simp] theorem forEach_msu_source {α : Type} (xs : List α) (f : α → Ev → Ev) (e : Ev)
    (h : ∀ x e, (f x e).msu.source = e.msu.source) : (e.forEach xs f).msu.source = e.msu.source := forEach_app (·.msu.source) xs f e h
@[simp] theorem forEach_msu_batteryLow {α : Type} (xs : List α) (f : α → Ev → Ev) (e : Ev)
    (h : ∀ x e, (f x e).msu.batteryLow = e.msu.batteryLow) : (e.forEach xs f).msu.batteryLow = e.msu.batteryLow := forEach_app (·.msu.batteryLow) xs f e h
@[simp] theorem forEach_msu_wake {α : Type} (xs : List α) (f : α → Ev → Ev) (e : Ev)
    (h : ∀ x e, (f x e).msu.wake = e.msu.wake) : (e.forEach xs f).msu.wake = e.msu.wake := forEach_app (·.msu.wake) xs f e h
@[simp] theorem forEach_msu_key {α : Type} (xs : List α) (f : α → Ev → Ev) (e : Ev)
    (h : ∀ x e, (f x e).msu.key = e.msu.key) : (e.forEach xs f).msu.key = e.msu.key := forEach_app (·.msu.key) xs f e h
@[simp] theorem forEach_msu_bellPermit {α : Type} (xs : List α) (f : α → Ev → Ev) (e : Ev)
    (h : ∀ x e, (f x e).msu.bellPermit = e.msu.bellPermit) : (e.forEach xs f).msu.bellPermit = e.msu.bellPermit := forEach_app (·.msu.bellPermit) xs f e h
@[simp] theorem forEach_msu_announcePermit {α : Type} (xs : List α) (f : α → Ev → Ev) (e : Ev)
    (h : ∀ x e, (f x e).msu.announcePermit = e.msu.announcePermit) : (e.forEach xs f).msu.announcePermit = e.msu.announcePermit := forEach_app (·.msu.announcePermit) xs f e h
@[simp] theorem forEach_msu_grillePermit {α : Type} (xs : List α) (f : α → Ev → Ev) (e : Ev)
    (h : ∀ x e, (f x e).msu.grillePermit = e.msu.grillePermit) : (e.forEach xs f).msu.grillePermit = e.msu.grillePermit := forEach_app (·.msu.grillePermit) xs f e h
@[simp] theorem forEach_cht_settings {α : Type} (xs : List α) (f : α → Ev → Ev) (e : Ev)
    (h : ∀ x e, (f x e).cht.settings = e.cht.settings) : (e.forEach xs f).cht.settings = e.cht.settings := forEach_app (·.cht.settings) xs f e h
@[simp] theorem forEach_cht_landings {α : Type} (xs : List α) (f : α → Ev → Ev) (e : Ev)
    (h : ∀ x e, (f x e).cht.landings = e.cht.landings) : (e.forEach xs f).cht.landings = e.cht.landings := forEach_app (·.cht.landings) xs f e h
@[simp] theorem forEach_cht_clearList {α : Type} (xs : List α) (f : α → Ev → Ev) (e : Ev)
    (h : ∀ x e, (f x e).cht.clearList = e.cht.clearList) : (e.forEach xs f).cht.clearList = e.cht.clearList := forEach_app (·.cht.clearList) xs f e h
@[simp] theorem forEach_cht_position {α : Type} (xs : List α) (f : α → Ev → Ev) (e : Ev)
    (h : ∀ x e, (f x e).cht.position = e.cht.position) : (e.forEach xs f).cht.position = e.cht.position := forEach_app (·.cht.position) xs f e h
@[simp] theorem forEach_cht_settled {α : Type} (xs : List α) (f : α → Ev → Ev) (e : Ev)
    (h : ∀ x e, (f x e).cht.settled = e.cht.settled) : (e.forEach xs f).cht.settled = e.cht.settled := forEach_app (·.cht.settled) xs f e h
@[simp] theorem forEach_cht_settleWait {α : Type} (xs : List α) (f : α → Ev → Ev) (e : Ev)
    (h : ∀ x e, (f x e).cht.settleWait = e.cht.settleWait) : (e.forEach xs f).cht.settleWait = e.cht.settleWait := forEach_app (·.cht.settleWait) xs f e h
@[simp] theorem forEach_pnc_state {α : Type} (xs : List α) (f : α → Ev → Ev) (e : Ev)
    (h : ∀ x e, (f x e).pnc.state = e.pnc.state) : (e.forEach xs f).pnc.state = e.pnc.state := forEach_app (·.pnc.state) xs f e h
@[simp] theorem forEach_fzu_zones {α : Type} (xs : List α) (f : α → Ev → Ev) (e : Ev)
    (h : ∀ x e, (f x e).fzu.zones = e.fzu.zones) : (e.forEach xs f).fzu.zones = e.fzu.zones := forEach_app (·.fzu.zones) xs f e h
@[simp] theorem forEach_fzu_fire {α : Type} (xs : List α) (f : α → Ev → Ev) (e : Ev)
    (h : ∀ x e, (f x e).fzu.fire = e.fzu.fire) : (e.forEach xs f).fzu.fire = e.fzu.fire := forEach_app (·.fzu.fire) xs f e h
@[simp] theorem forEach_fzu_deadline {α : Type} (xs : List α) (f : α → Ev → Ev) (e : Ev)
    (h : ∀ x e, (f x e).fzu.deadline = e.fzu.deadline) : (e.forEach xs f).fzu.deadline = e.fzu.deadline := forEach_app (·.fzu.deadline) xs f e h
@[simp] theorem forEach_blx_present {α : Type} (xs : List α) (f : α → Ev → Ev) (e : Ev)
    (h : ∀ x e, (f x e).blx.present = e.blx.present) : (e.forEach xs f).blx.present = e.blx.present := forEach_app (·.blx.present) xs f e h
@[simp] theorem forEach_anp_scripts {α : Type} (xs : List α) (f : α → Ev → Ev) (e : Ev)
    (h : ∀ x e, (f x e).anp.scripts = e.anp.scripts) : (e.forEach xs f).anp.scripts = e.anp.scripts := forEach_app (·.anp.scripts) xs f e h
@[simp] theorem forEach_cpu_programme {α : Type} (xs : List α) (f : α → Ev → Ev) (e : Ev)
    (h : ∀ x e, (f x e).cpu.programme = e.cpu.programme) : (e.forEach xs f).cpu.programme = e.cpu.programme := forEach_app (·.cpu.programme) xs f e h
@[simp] theorem forEach_cpu_start {α : Type} (xs : List α) (f : α → Ev → Ev) (e : Ev)
    (h : ∀ x e, (f x e).cpu.start = e.cpu.start) : (e.forEach xs f).cpu.start = e.cpu.start := forEach_app (·.cpu.start) xs f e h
@[simp] theorem forEach_cpu_run_isSome {α : Type} (xs : List α) (f : α → Ev → Ev) (e : Ev)
    (h : ∀ x e, (f x e).cpu.run.isSome = e.cpu.run.isSome) : (e.forEach xs f).cpu.run.isSome = e.cpu.run.isSome := forEach_app (·.cpu.run.isSome) xs f e h
@[simp] theorem fst_toEnv {β γ : Type} (xs : List β) (f : Ev × γ → β → Ev × γ) (r : Ev × γ)
    (h : ∀ r x, (f r x).1.toEnv = r.1.toEnv) : (xs.foldl f r).1.toEnv = r.1.toEnv := fst_app (·.toEnv) xs f r h
@[simp] theorem fst_msu {β γ : Type} (xs : List β) (f : Ev × γ → β → Ev × γ) (r : Ev × γ)
    (h : ∀ r x, (f r x).1.msu = r.1.msu) : (xs.foldl f r).1.msu = r.1.msu := fst_app (·.msu) xs f r h
@[simp] theorem fst_cht {β γ : Type} (xs : List β) (f : Ev × γ → β → Ev × γ) (r : Ev × γ)
    (h : ∀ r x, (f r x).1.cht = r.1.cht) : (xs.foldl f r).1.cht = r.1.cht := fst_app (·.cht) xs f r h
@[simp] theorem fst_pnc {β γ : Type} (xs : List β) (f : Ev × γ → β → Ev × γ) (r : Ev × γ)
    (h : ∀ r x, (f r x).1.pnc = r.1.pnc) : (xs.foldl f r).1.pnc = r.1.pnc := fst_app (·.pnc) xs f r h
@[simp] theorem fst_shc {β γ : Type} (xs : List β) (f : Ev × γ → β → Ev × γ) (r : Ev × γ)
    (h : ∀ r x, (f r x).1.shc = r.1.shc) : (xs.foldl f r).1.shc = r.1.shc := fst_app (·.shc) xs f r h
@[simp] theorem fst_fzu {β γ : Type} (xs : List β) (f : Ev × γ → β → Ev × γ) (r : Ev × γ)
    (h : ∀ r x, (f r x).1.fzu = r.1.fzu) : (xs.foldl f r).1.fzu = r.1.fzu := fst_app (·.fzu) xs f r h
@[simp] theorem fst_blx {β γ : Type} (xs : List β) (f : Ev × γ → β → Ev × γ) (r : Ev × γ)
    (h : ∀ r x, (f r x).1.blx = r.1.blx) : (xs.foldl f r).1.blx = r.1.blx := fst_app (·.blx) xs f r h
@[simp] theorem fst_anp {β γ : Type} (xs : List β) (f : Ev × γ → β → Ev × γ) (r : Ev × γ)
    (h : ∀ r x, (f r x).1.anp = r.1.anp) : (xs.foldl f r).1.anp = r.1.anp := fst_app (·.anp) xs f r h
@[simp] theorem fst_stamps {β γ : Type} (xs : List β) (f : Ev × γ → β → Ev × γ) (r : Ev × γ)
    (h : ∀ r x, (f r x).1.stamps = r.1.stamps) : (xs.foldl f r).1.stamps = r.1.stamps := fst_app (·.stamps) xs f r h
@[simp] theorem fst_cpu {β γ : Type} (xs : List β) (f : Ev × γ → β → Ev × γ) (r : Ev × γ)
    (h : ∀ r x, (f r x).1.cpu = r.1.cpu) : (xs.foldl f r).1.cpu = r.1.cpu := fst_app (·.cpu) xs f r h
@[simp] theorem fst_cpu_programme {β γ : Type} (xs : List β) (f : Ev × γ → β → Ev × γ) (r : Ev × γ)
    (h : ∀ r x, (f r x).1.cpu.programme = r.1.cpu.programme) : (xs.foldl f r).1.cpu.programme = r.1.cpu.programme := fst_app (·.cpu.programme) xs f r h
@[simp] theorem fst_cpu_start {β γ : Type} (xs : List β) (f : Ev × γ → β → Ev × γ) (r : Ev × γ)
    (h : ∀ r x, (f r x).1.cpu.start = r.1.cpu.start) : (xs.foldl f r).1.cpu.start = r.1.cpu.start := fst_app (·.cpu.start) xs f r h
@[simp] theorem fst_cpu_run_isSome {β γ : Type} (xs : List β) (f : Ev × γ → β → Ev × γ) (r : Ev × γ)
    (h : ∀ r x, (f r x).1.cpu.run.isSome = r.1.cpu.run.isSome) : (xs.foldl f r).1.cpu.run.isSome = r.1.cpu.run.isSome := fst_app (·.cpu.run.isSome) xs f r h
@[simp] theorem fst_pnc_state {β γ : Type} (xs : List β) (f : Ev × γ → β → Ev × γ) (r : Ev × γ)
    (h : ∀ r x, (f r x).1.pnc.state = r.1.pnc.state) : (xs.foldl f r).1.pnc.state = r.1.pnc.state := fst_app (·.pnc.state) xs f r h
@[simp] theorem stamp_frame (slot : Fin 5) (detail : Nat) (e : Ev) :
    (stamp slot detail e).toEnv = e.toEnv ∧ (stamp slot detail e).msu = e.msu ∧ (stamp slot detail e).cht = e.cht ∧
    (stamp slot detail e).pnc = e.pnc ∧ (stamp slot detail e).shc = e.shc ∧ (stamp slot detail e).fzu = e.fzu ∧
    (stamp slot detail e).blx = e.blx ∧ (stamp slot detail e).anp = e.anp ∧ (stamp slot detail e).cpu = e.cpu := by
  simp -implicitDefEqProofs [stamp]

@[simp] theorem recordStep_frame (i : Nat) (r : StepRecord) (e : Ev) :
    (recordStep i r e).toEnv = e.toEnv ∧ (recordStep i r e).msu = e.msu ∧ (recordStep i r e).cht = e.cht ∧
    (recordStep i r e).pnc = e.pnc ∧ (recordStep i r e).shc = e.shc ∧ (recordStep i r e).fzu = e.fzu ∧
    (recordStep i r e).blx = e.blx ∧ (recordStep i r e).anp = e.anp ∧ (recordStep i r e).stamps = e.stamps ∧
    (recordStep i r e).cpu.programme = e.cpu.programme ∧ (recordStep i r e).cpu.start = e.cpu.start ∧
    (recordStep i r e).cpu.run.isSome = e.cpu.run.isSome := by
  unfold recordStep; (repeat' split) <;> simp -implicitDefEqProofs [*]

@[simp] theorem handBackSweep_frame (r : Reason) (e : Ev) :
    (handBackSweep r e).toEnv = e.toEnv ∧ (handBackSweep r e).msu = e.msu ∧ (handBackSweep r e).cht = e.cht ∧
    (handBackSweep r e).pnc.state = e.pnc.state ∧ (handBackSweep r e).shc = e.shc ∧ (handBackSweep r e).fzu = e.fzu ∧
    (handBackSweep r e).blx = e.blx ∧ (handBackSweep r e).anp = e.anp ∧ (handBackSweep r e).stamps = e.stamps ∧
    (handBackSweep r e).cpu.programme = e.cpu.programme ∧ (handBackSweep r e).cpu.start = e.cpu.start ∧
    (handBackSweep r e).cpu.run.isSome = e.cpu.run.isSome := by
  unfold handBackSweep; (repeat' split) <;> simp -implicitDefEqProofs [*]

@[simp] theorem dropSteps_frame (e : Ev) :
    (dropSteps e).toEnv = e.toEnv ∧ (dropSteps e).msu = e.msu ∧ (dropSteps e).cht = e.cht ∧ (dropSteps e).pnc = e.pnc ∧
    (dropSteps e).shc = e.shc ∧ (dropSteps e).fzu = e.fzu ∧ (dropSteps e).blx = e.blx ∧ (dropSteps e).anp = e.anp ∧
    (dropSteps e).stamps = e.stamps ∧ (dropSteps e).cpu.programme = e.cpu.programme ∧
    (dropSteps e).cpu.start = e.cpu.start ∧ (dropSteps e).cpu.run.isSome = e.cpu.run.isSome := by
  simp -implicitDefEqProofs [dropSteps]

@[simp] theorem endRun_frame (cause : EndCause) (e : Ev) :
    (endRun cause e).toEnv = e.toEnv ∧ (endRun cause e).msu = e.msu ∧ (endRun cause e).cht = e.cht ∧
    (endRun cause e).pnc = e.pnc ∧ (endRun cause e).shc = e.shc ∧ (endRun cause e).fzu = e.fzu ∧
    (endRun cause e).blx = e.blx ∧ (endRun cause e).anp = e.anp ∧ (endRun cause e).stamps = e.stamps ∧
    (endRun cause e).cpu.programme = e.cpu.programme ∧ (endRun cause e).cpu.start = e.cpu.start := by
  unfold endRun; (repeat' split) <;> simp -implicitDefEqProofs [*]

@[simp] theorem closeSurvey_frame (r : SurveyResult) (e : Ev) :
    (closeSurvey r e).toEnv = e.toEnv ∧ (closeSurvey r e).msu = e.msu ∧ (closeSurvey r e).cht.settings = e.cht.settings ∧
    (closeSurvey r e).cht.landings = e.cht.landings ∧ (closeSurvey r e).cht.clearList = e.cht.clearList ∧
    (closeSurvey r e).cht.position = e.cht.position ∧ (closeSurvey r e).cht.settled = e.cht.settled ∧
    (closeSurvey r e).cht.settleWait = e.cht.settleWait ∧ (closeSurvey r e).pnc = e.pnc ∧ (closeSurvey r e).shc = e.shc ∧
    (closeSurvey r e).fzu = e.fzu ∧ (closeSurvey r e).blx = e.blx ∧ (closeSurvey r e).anp = e.anp ∧
    (closeSurvey r e).stamps = e.stamps ∧ (closeSurvey r e).cpu = e.cpu := by
  simp -implicitDefEqProofs [closeSurvey]

@[simp] theorem abandonSurvey_frame (cause : AbandonCause) (e : Ev) :
    (abandonSurvey cause e).toEnv = e.toEnv ∧ (abandonSurvey cause e).msu = e.msu ∧
    (abandonSurvey cause e).cht.settings = e.cht.settings ∧ (abandonSurvey cause e).cht.landings = e.cht.landings ∧
    (abandonSurvey cause e).cht.clearList = e.cht.clearList ∧ (abandonSurvey cause e).cht.position = e.cht.position ∧
    (abandonSurvey cause e).cht.settled = e.cht.settled ∧ (abandonSurvey cause e).cht.settleWait = e.cht.settleWait ∧
    (abandonSurvey cause e).pnc = e.pnc ∧ (abandonSurvey cause e).shc = e.shc ∧ (abandonSurvey cause e).fzu = e.fzu ∧
    (abandonSurvey cause e).blx = e.blx ∧ (abandonSurvey cause e).anp = e.anp ∧
    (abandonSurvey cause e).stamps = e.stamps ∧ (abandonSurvey cause e).cpu = e.cpu := by
  simp -implicitDefEqProofs [abandonSurvey, apply_ite Cht.settings, apply_ite Cht.landings, apply_ite Cht.clearList, apply_ite Cht.position, apply_ite Cht.settled, apply_ite Cht.settleWait]

@[simp] theorem creep_frame (target : Option Nat) (seconds : Nat) (e : Ev) :
    (creep target seconds e).toEnv = e.toEnv ∧ (creep target seconds e).msu = e.msu ∧
    (creep target seconds e).cht = e.cht ∧ (creep target seconds e).shc = e.shc ∧ (creep target seconds e).fzu = e.fzu ∧
    (creep target seconds e).blx = e.blx ∧ (creep target seconds e).anp = e.anp ∧
    (creep target seconds e).stamps = e.stamps ∧ (creep target seconds e).cpu = e.cpu := by
  simp -implicitDefEqProofs [creep]

@[simp] theorem creepTo_frame (t : Nat) (e : Ev) :
    (creepTo t e).toEnv = e.toEnv ∧ (creepTo t e).msu = e.msu ∧ (creepTo t e).cht = e.cht ∧ (creepTo t e).shc = e.shc ∧
    (creepTo t e).fzu = e.fzu ∧ (creepTo t e).blx = e.blx ∧ (creepTo t e).anp = e.anp ∧ (creepTo t e).stamps = e.stamps ∧
    (creepTo t e).cpu = e.cpu := by
  simp -implicitDefEqProofs [creepTo]

@[simp] theorem creepForIndex_frame (e : Ev) :
    (creepForIndex e).toEnv = e.toEnv ∧ (creepForIndex e).msu = e.msu ∧ (creepForIndex e).cht = e.cht ∧
    (creepForIndex e).shc = e.shc ∧ (creepForIndex e).fzu = e.fzu ∧ (creepForIndex e).blx = e.blx ∧
    (creepForIndex e).anp = e.anp ∧ (creepForIndex e).stamps = e.stamps ∧ (creepForIndex e).cpu = e.cpu := by
  simp -implicitDefEqProofs [creepForIndex]

@[simp] theorem settle_frame (e : Ev) :
    (settle e).toEnv = e.toEnv ∧ (settle e).msu = e.msu ∧ (settle e).cht = e.cht ∧ (settle e).shc = e.shc ∧
    (settle e).fzu = e.fzu ∧ (settle e).blx = e.blx ∧ (settle e).anp = e.anp ∧ (settle e).stamps = e.stamps ∧
    (settle e).cpu = e.cpu := by
  simp -implicitDefEqProofs [settle]

@[simp] theorem newStop_frame (purpose : Purpose) (e : Ev) :
    (newStop purpose e).toEnv = e.toEnv ∧ (newStop purpose e).msu = e.msu ∧ (newStop purpose e).cht = e.cht ∧
    (newStop purpose e).pnc.state = e.pnc.state ∧ (newStop purpose e).shc = e.shc ∧ (newStop purpose e).fzu = e.fzu ∧
    (newStop purpose e).blx = e.blx ∧ (newStop purpose e).anp = e.anp ∧ (newStop purpose e).stamps = e.stamps ∧
    (newStop purpose e).cpu = e.cpu := by
  simp -implicitDefEqProofs [newStop]

@[simp] theorem restIn_frame (st : PnState) (e : Ev) :
    (restIn st e).toEnv = e.toEnv ∧ (restIn st e).msu = e.msu ∧ (restIn st e).cht = e.cht ∧ (restIn st e).shc = e.shc ∧
    (restIn st e).fzu = e.fzu ∧ (restIn st e).blx = e.blx ∧ (restIn st e).anp = e.anp ∧ (restIn st e).stamps = e.stamps ∧
    (restIn st e).cpu = e.cpu := by
  simp -implicitDefEqProofs [restIn]

@[simp] theorem failSweep_frame (r : Reason) (e : Ev) :
    (failSweep r e).toEnv = e.toEnv ∧ (failSweep r e).msu = e.msu ∧ (failSweep r e).cht = e.cht ∧
    (failSweep r e).pnc.state = e.pnc.state ∧ (failSweep r e).shc = e.shc ∧ (failSweep r e).fzu = e.fzu ∧
    (failSweep r e).blx = e.blx ∧ (failSweep r e).anp = e.anp ∧ (failSweep r e).stamps = e.stamps ∧
    (failSweep r e).cpu.programme = e.cpu.programme ∧ (failSweep r e).cpu.start = e.cpu.start ∧
    (failSweep r e).cpu.run.isSome = e.cpu.run.isSome := by
  simp -implicitDefEqProofs [failSweep]

@[simp] theorem failAll_frame (r : Reason) (e : Ev) :
    (failAll r e).toEnv = e.toEnv ∧ (failAll r e).msu = e.msu ∧ (failAll r e).cht = e.cht ∧
    (failAll r e).pnc.state = e.pnc.state ∧ (failAll r e).shc = e.shc ∧ (failAll r e).fzu = e.fzu ∧
    (failAll r e).blx = e.blx ∧ (failAll r e).anp = e.anp ∧ (failAll r e).stamps = e.stamps ∧
    (failAll r e).cpu.programme = e.cpu.programme ∧ (failAll r e).cpu.start = e.cpu.start ∧
    (failAll r e).cpu.run.isSome = e.cpu.run.isSome := by
  simp -implicitDefEqProofs [failAll]

@[simp] theorem halt_frame (e : Ev) :
    (halt e).toEnv = e.toEnv ∧ (halt e).msu = e.msu ∧ (halt e).cht = e.cht ∧ (halt e).shc = e.shc ∧
    (halt e).fzu = e.fzu ∧ (halt e).blx = e.blx ∧ (halt e).anp = e.anp ∧ (halt e).stamps = e.stamps ∧ (halt e).cpu = e.cpu := by
  simp -implicitDefEqProofs [halt]

@[simp] theorem hold_frame (e : Ev) :
    (hold e).toEnv = e.toEnv ∧ (hold e).msu = e.msu ∧ (hold e).cht = e.cht ∧ (hold e).shc = e.shc ∧
    (hold e).fzu = e.fzu ∧ (hold e).blx = e.blx ∧ (hold e).anp = e.anp ∧ (hold e).stamps = e.stamps ∧ (hold e).cpu = e.cpu := by
  simp -implicitDefEqProofs [hold]

@[simp] theorem haltAfter_frame (e : Ev) :
    (haltAfter e).toEnv = e.toEnv ∧ (haltAfter e).msu = e.msu ∧ (haltAfter e).cht = e.cht ∧ (haltAfter e).shc = e.shc ∧
    (haltAfter e).fzu = e.fzu ∧ (haltAfter e).blx = e.blx ∧ (haltAfter e).anp = e.anp ∧ (haltAfter e).stamps = e.stamps ∧
    (haltAfter e).cpu.programme = e.cpu.programme ∧ (haltAfter e).cpu.start = e.cpu.start ∧
    (haltAfter e).cpu.run.isSome = e.cpu.run.isSome := by
  simp -implicitDefEqProofs [haltAfter, apply_ite Cpu.programme, apply_ite Cpu.start, apply_ite Cpu.run, apply_ite Option.isSome]

@[simp] theorem lockAfterSweep_frame (e : Ev) :
    (lockAfterSweep e).toEnv = e.toEnv ∧ (lockAfterSweep e).msu = e.msu ∧ (lockAfterSweep e).cht = e.cht ∧
    (lockAfterSweep e).shc = e.shc ∧ (lockAfterSweep e).fzu = e.fzu ∧ (lockAfterSweep e).blx = e.blx ∧
    (lockAfterSweep e).anp = e.anp ∧ (lockAfterSweep e).stamps = e.stamps ∧
    (lockAfterSweep e).cpu.programme = e.cpu.programme ∧ (lockAfterSweep e).cpu.start = e.cpu.start ∧
    (lockAfterSweep e).cpu.run.isSome = e.cpu.run.isSome := by
  simp -implicitDefEqProofs [lockAfterSweep]

@[simp] theorem enterEstop_frame (c : Cause) (e : Ev) :
    (enterEstop c e).toEnv = e.toEnv ∧ (enterEstop c e).msu = e.msu ∧ (enterEstop c e).cht.settings = e.cht.settings ∧
    (enterEstop c e).cht.landings = e.cht.landings ∧ (enterEstop c e).cht.clearList = e.cht.clearList ∧
    (enterEstop c e).cht.position = e.cht.position ∧ (enterEstop c e).cht.settled = e.cht.settled ∧
    (enterEstop c e).cht.settleWait = e.cht.settleWait ∧ (enterEstop c e).shc = e.shc ∧ (enterEstop c e).fzu = e.fzu ∧
    (enterEstop c e).blx = e.blx ∧ (enterEstop c e).anp = e.anp ∧ (enterEstop c e).cpu.programme = e.cpu.programme ∧
    (enterEstop c e).cpu.start = e.cpu.start ∧ (enterEstop c e).cpu.run.isSome = e.cpu.run.isSome := by
  simp -implicitDefEqProofs [enterEstop]

@[simp] theorem estop_frame (c : Cause) (e : Ev) :
    (estop c e).toEnv = e.toEnv ∧ (estop c e).msu = e.msu ∧ (estop c e).cht.settings = e.cht.settings ∧
    (estop c e).cht.landings = e.cht.landings ∧ (estop c e).cht.clearList = e.cht.clearList ∧
    (estop c e).cht.position = e.cht.position ∧ (estop c e).cht.settled = e.cht.settled ∧
    (estop c e).cht.settleWait = e.cht.settleWait ∧ (estop c e).shc = e.shc ∧ (estop c e).fzu = e.fzu ∧
    (estop c e).blx = e.blx ∧ (estop c e).anp = e.anp ∧ (estop c e).cpu.programme = e.cpu.programme ∧
    (estop c e).cpu.start = e.cpu.start ∧ (estop c e).cpu.run.isSome = e.cpu.run.isSome := by
  unfold estop; (repeat' split) <;> simp -implicitDefEqProofs [*]

@[simp] theorem settledBare_frame (e : Ev) :
    (settledBare e).toEnv = e.toEnv ∧ (settledBare e).msu = e.msu ∧ (settledBare e).cht = e.cht ∧
    (settledBare e).shc = e.shc ∧ (settledBare e).fzu = e.fzu ∧ (settledBare e).blx = e.blx ∧
    (settledBare e).anp = e.anp ∧ (settledBare e).stamps = e.stamps ∧ (settledBare e).cpu.programme = e.cpu.programme ∧
    (settledBare e).cpu.start = e.cpu.start ∧ (settledBare e).cpu.run.isSome = e.cpu.run.isSome := by
  unfold settledBare; (repeat' split) <;> simp -implicitDefEqProofs [*]

@[simp] theorem settledHit_frame (e : Ev) :
    (settledHit e).toEnv = e.toEnv ∧ (settledHit e).msu = e.msu ∧ (settledHit e).cht = e.cht ∧
    (settledHit e).shc = e.shc ∧ (settledHit e).fzu = e.fzu ∧ (settledHit e).blx = e.blx ∧ (settledHit e).anp = e.anp ∧
    (settledHit e).stamps = e.stamps ∧ (settledHit e).cpu.programme = e.cpu.programme ∧
    (settledHit e).cpu.start = e.cpu.start ∧ (settledHit e).cpu.run.isSome = e.cpu.run.isSome := by
  unfold settledHit; (repeat' split) <;> simp -implicitDefEqProofs [*]

@[simp] theorem missAgain_frame (e : Ev) :
    (missAgain e).toEnv = e.toEnv ∧ (missAgain e).msu = e.msu ∧ (missAgain e).cht = e.cht ∧ (missAgain e).shc = e.shc ∧
    (missAgain e).fzu = e.fzu ∧ (missAgain e).blx = e.blx ∧ (missAgain e).anp = e.anp ∧ (missAgain e).stamps = e.stamps ∧
    (missAgain e).cpu.programme = e.cpu.programme ∧ (missAgain e).cpu.start = e.cpu.start ∧
    (missAgain e).cpu.run.isSome = e.cpu.run.isSome := by
  unfold missAgain; (repeat' split) <;> simp -implicitDefEqProofs [*]

@[simp] theorem settledMiss_frame (e : Ev) :
    (settledMiss e).toEnv = e.toEnv ∧ (settledMiss e).msu = e.msu ∧ (settledMiss e).cht.settings = e.cht.settings ∧
    (settledMiss e).cht.landings = e.cht.landings ∧ (settledMiss e).cht.clearList = e.cht.clearList ∧
    (settledMiss e).cht.position = e.cht.position ∧ (settledMiss e).cht.settled = e.cht.settled ∧
    (settledMiss e).cht.settleWait = e.cht.settleWait ∧ (settledMiss e).shc = e.shc ∧ (settledMiss e).fzu = e.fzu ∧
    (settledMiss e).blx = e.blx ∧ (settledMiss e).anp = e.anp ∧ (settledMiss e).cpu.programme = e.cpu.programme ∧
    (settledMiss e).cpu.start = e.cpu.start ∧ (settledMiss e).cpu.run.isSome = e.cpu.run.isSome := by
  unfold settledMiss; (repeat' split) <;> simp -implicitDefEqProofs [*]

@[simp] theorem judge_frame (e : Ev) :
    (judge e).toEnv = e.toEnv ∧ (judge e).msu = e.msu ∧ (judge e).cht.settings = e.cht.settings ∧
    (judge e).cht.landings = e.cht.landings ∧ (judge e).cht.clearList = e.cht.clearList ∧
    (judge e).cht.position = e.cht.position ∧ (judge e).cht.settled = e.cht.settled ∧
    (judge e).cht.settleWait = e.cht.settleWait ∧ (judge e).shc = e.shc ∧ (judge e).fzu = e.fzu ∧ (judge e).blx = e.blx ∧
    (judge e).anp = e.anp ∧ (judge e).cpu.programme = e.cpu.programme ∧ (judge e).cpu.start = e.cpu.start ∧
    (judge e).cpu.run.isSome = e.cpu.run.isSome := by
  unfold judge; (repeat' split) <;> simp -implicitDefEqProofs [*]

@[simp] theorem endSurveyClaim_frame (e : Ev) :
    (endSurveyClaim e).toEnv = e.toEnv ∧ (endSurveyClaim e).msu = e.msu ∧ (endSurveyClaim e).cht = e.cht ∧
    (endSurveyClaim e).shc = e.shc ∧ (endSurveyClaim e).fzu = e.fzu ∧ (endSurveyClaim e).blx = e.blx ∧
    (endSurveyClaim e).anp = e.anp ∧ (endSurveyClaim e).stamps = e.stamps ∧ (endSurveyClaim e).cpu = e.cpu := by
  simp -implicitDefEqProofs [endSurveyClaim]

@[simp] theorem powerStop_frame (e : Ev) :
    (powerStop e).toEnv = e.toEnv ∧ (powerStop e).msu = e.msu ∧ (powerStop e).cht.settings = e.cht.settings ∧
    (powerStop e).cht.landings = e.cht.landings ∧ (powerStop e).cht.clearList = e.cht.clearList ∧
    (powerStop e).cht.position = e.cht.position ∧ (powerStop e).cht.settled = e.cht.settled ∧
    (powerStop e).cht.settleWait = e.cht.settleWait ∧ (powerStop e).shc = e.shc ∧ (powerStop e).fzu = e.fzu ∧
    (powerStop e).blx = e.blx ∧ (powerStop e).anp = e.anp ∧ (powerStop e).stamps = e.stamps ∧
    (powerStop e).cpu.programme = e.cpu.programme ∧ (powerStop e).cpu.start = e.cpu.start ∧
    (powerStop e).cpu.run.isSome = e.cpu.run.isSome := by
  unfold powerStop; (repeat' split) <;> simp -implicitDefEqProofs [*]

@[simp] theorem estopByInputs_frame (e : Ev) :
    (estopByInputs e).toEnv = e.toEnv ∧ (estopByInputs e).msu = e.msu ∧ (estopByInputs e).cht = e.cht ∧
    (estopByInputs e).shc = e.shc ∧ (estopByInputs e).fzu = e.fzu ∧ (estopByInputs e).blx = e.blx ∧
    (estopByInputs e).anp = e.anp ∧ (estopByInputs e).cpu = e.cpu := by
  simp -implicitDefEqProofs [estopByInputs]

@[simp] theorem powerReturn_frame (e : Ev) :
    (powerReturn e).toEnv = e.toEnv ∧ (powerReturn e).msu = e.msu ∧ (powerReturn e).cht = e.cht ∧
    (powerReturn e).shc = e.shc ∧ (powerReturn e).fzu = e.fzu ∧ (powerReturn e).blx = e.blx ∧
    (powerReturn e).anp = e.anp ∧ (powerReturn e).cpu = e.cpu := by
  simp only [powerReturn, Ev.when]; (repeat' split) <;> simp -implicitDefEqProofs [*]

@[simp] theorem fireCreep_frame (e : Ev) :
    (fireCreep e).toEnv = e.toEnv ∧ (fireCreep e).msu = e.msu ∧ (fireCreep e).cht = e.cht ∧ (fireCreep e).shc = e.shc ∧
    (fireCreep e).fzu = e.fzu ∧ (fireCreep e).blx = e.blx ∧ (fireCreep e).anp = e.anp ∧ (fireCreep e).stamps = e.stamps ∧
    (fireCreep e).cpu = e.cpu := by
  simp only [fireCreep]; (repeat' split) <;> simp -implicitDefEqProofs [*]

@[simp] theorem fireDemand_frame (e : Ev) :
    (fireDemand e).toEnv = e.toEnv ∧ (fireDemand e).msu = e.msu ∧ (fireDemand e).cht.settings = e.cht.settings ∧
    (fireDemand e).cht.landings = e.cht.landings ∧ (fireDemand e).cht.clearList = e.cht.clearList ∧
    (fireDemand e).cht.position = e.cht.position ∧ (fireDemand e).cht.settled = e.cht.settled ∧
    (fireDemand e).cht.settleWait = e.cht.settleWait ∧ (fireDemand e).shc = e.shc ∧ (fireDemand e).fzu = e.fzu ∧
    (fireDemand e).blx = e.blx ∧ (fireDemand e).anp = e.anp ∧ (fireDemand e).stamps = e.stamps ∧
    (fireDemand e).cpu.programme = e.cpu.programme ∧ (fireDemand e).cpu.start = e.cpu.start ∧
    (fireDemand e).cpu.run.isSome = e.cpu.run.isSome := by
  unfold fireDemand; (repeat' split) <;> simp -implicitDefEqProofs [*]

@[simp] theorem chooseAgain_frame (e : Ev) :
    (chooseAgain e).toEnv = e.toEnv ∧ (chooseAgain e).msu = e.msu ∧ (chooseAgain e).cht = e.cht ∧
    (chooseAgain e).shc = e.shc ∧ (chooseAgain e).fzu = e.fzu ∧ (chooseAgain e).blx = e.blx ∧
    (chooseAgain e).anp = e.anp ∧ (chooseAgain e).stamps = e.stamps ∧ (chooseAgain e).cpu = e.cpu := by
  unfold chooseAgain; (repeat' split) <;> simp -implicitDefEqProofs [*]

@[simp] theorem holdPending_frame (pending : Bool) (e : Ev) :
    (holdPending pending e).toEnv = e.toEnv ∧ (holdPending pending e).msu = e.msu ∧ (holdPending pending e).cht = e.cht ∧
    (holdPending pending e).shc = e.shc ∧ (holdPending pending e).fzu = e.fzu ∧ (holdPending pending e).blx = e.blx ∧
    (holdPending pending e).anp = e.anp ∧ (holdPending pending e).stamps = e.stamps ∧ (holdPending pending e).cpu = e.cpu := by
  simp -implicitDefEqProofs [holdPending]

@[simp] theorem evaluateRest_frame (e : Ev) :
    (evaluateRest e).toEnv = e.toEnv ∧ (evaluateRest e).msu = e.msu ∧ (evaluateRest e).cht = e.cht ∧
    (evaluateRest e).shc = e.shc ∧ (evaluateRest e).fzu = e.fzu ∧ (evaluateRest e).blx = e.blx ∧
    (evaluateRest e).anp = e.anp ∧ (evaluateRest e).stamps = e.stamps ∧ (evaluateRest e).cpu = e.cpu := by
  simp only [evaluateRest]; (repeat' split) <;> simp -implicitDefEqProofs [*]

@[simp] theorem indexFound_frame (e : Ev) :
    (indexFound e).toEnv = e.toEnv ∧ (indexFound e).msu = e.msu ∧ (indexFound e).cht = e.cht ∧
    (indexFound e).shc = e.shc ∧ (indexFound e).fzu = e.fzu ∧ (indexFound e).blx = e.blx ∧ (indexFound e).anp = e.anp ∧
    (indexFound e).stamps = e.stamps ∧ (indexFound e).cpu = e.cpu := by
  unfold indexFound; (repeat' split) <;> simp -implicitDefEqProofs [*]

@[simp] theorem fireOver_frame (e : Ev) :
    (fireOver e).toEnv = e.toEnv ∧ (fireOver e).msu = e.msu ∧ (fireOver e).cht = e.cht ∧ (fireOver e).shc = e.shc ∧
    (fireOver e).fzu = e.fzu ∧ (fireOver e).blx = e.blx ∧ (fireOver e).anp = e.anp ∧ (fireOver e).stamps = e.stamps ∧
    (fireOver e).cpu = e.cpu := by
  unfold fireOver; (repeat' split) <;> simp -implicitDefEqProofs [*]

@[simp] theorem lockIfHalted_frame (e : Ev) :
    (lockIfHalted e).toEnv = e.toEnv ∧ (lockIfHalted e).msu = e.msu ∧ (lockIfHalted e).cht = e.cht ∧
    (lockIfHalted e).shc = e.shc ∧ (lockIfHalted e).fzu = e.fzu ∧ (lockIfHalted e).blx = e.blx ∧
    (lockIfHalted e).anp = e.anp ∧ (lockIfHalted e).stamps = e.stamps ∧ (lockIfHalted e).cpu = e.cpu := by
  simp -implicitDefEqProofs [lockIfHalted]

@[simp] theorem beginSweep_frame (claimed : Bool) (e : Ev) :
    (beginSweep claimed e).toEnv = e.toEnv ∧ (beginSweep claimed e).msu = e.msu ∧ (beginSweep claimed e).cht = e.cht ∧
    (beginSweep claimed e).shc = e.shc ∧ (beginSweep claimed e).fzu = e.fzu ∧ (beginSweep claimed e).blx = e.blx ∧
    (beginSweep claimed e).anp = e.anp ∧ (beginSweep claimed e).stamps = e.stamps ∧ (beginSweep claimed e).cpu = e.cpu := by
  simp only [beginSweep]; (repeat' split) <;> simp -implicitDefEqProofs [*]

@[simp] theorem putStation_frame (i : Fin 16) (s : Option Shutter) (e : Ev) :
    (putStation i s e).toEnv = e.toEnv ∧ (putStation i s e).msu = e.msu ∧ (putStation i s e).cht = e.cht ∧
    (putStation i s e).pnc = e.pnc ∧ (putStation i s e).fzu = e.fzu ∧ (putStation i s e).blx = e.blx ∧
    (putStation i s e).anp = e.anp ∧ (putStation i s e).stamps = e.stamps ∧ (putStation i s e).cpu = e.cpu := by
  simp -implicitDefEqProofs [putStation]

@[simp] theorem moveTo_frame (i : Fin 16) (old new : Shutter) (cause : ShutterCause) (e : Ev) :
    (moveTo i old new cause e).toEnv = e.toEnv ∧ (moveTo i old new cause e).msu = e.msu ∧
    (moveTo i old new cause e).cht = e.cht ∧ (moveTo i old new cause e).pnc = e.pnc ∧
    (moveTo i old new cause e).fzu = e.fzu ∧ (moveTo i old new cause e).blx = e.blx ∧
    (moveTo i old new cause e).anp = e.anp ∧ (moveTo i old new cause e).stamps = e.stamps ∧
    (moveTo i old new cause e).cpu = e.cpu := by
  simp -implicitDefEqProofs [moveTo]

@[simp] theorem addFault_frame (i : Fin 16) (kinds : BitVec 8) (e : Ev) :
    (addFault i kinds e).toEnv = e.toEnv ∧ (addFault i kinds e).msu = e.msu ∧ (addFault i kinds e).cht = e.cht ∧
    (addFault i kinds e).pnc = e.pnc ∧ (addFault i kinds e).fzu = e.fzu ∧ (addFault i kinds e).blx = e.blx ∧
    (addFault i kinds e).anp = e.anp ∧ (addFault i kinds e).stamps = e.stamps ∧ (addFault i kinds e).cpu = e.cpu := by
  unfold addFault; (repeat' split) <;> simp -implicitDefEqProofs [*]

@[simp] theorem closeEnds_frame (i : Fin 16) (o : Outcome) (r : Reason) (st : ShutterState) (e : Ev) :
    (closeEnds i o r st e).toEnv = e.toEnv ∧ (closeEnds i o r st e).msu = e.msu ∧ (closeEnds i o r st e).cht = e.cht ∧
    (closeEnds i o r st e).pnc = e.pnc ∧ (closeEnds i o r st e).shc = e.shc ∧ (closeEnds i o r st e).fzu = e.fzu ∧
    (closeEnds i o r st e).blx = e.blx ∧ (closeEnds i o r st e).anp = e.anp ∧ (closeEnds i o r st e).stamps = e.stamps ∧
    (closeEnds i o r st e).cpu = e.cpu := by
  simp -implicitDefEqProofs [closeEnds]

@[simp] theorem raiseEnds_frame (i : Fin 16) (o : Outcome) (r : Reason) (st : ShutterState) (e : Ev) :
    (raiseEnds i o r st e).toEnv = e.toEnv ∧ (raiseEnds i o r st e).msu = e.msu ∧ (raiseEnds i o r st e).cht = e.cht ∧
    (raiseEnds i o r st e).pnc = e.pnc ∧ (raiseEnds i o r st e).shc = e.shc ∧ (raiseEnds i o r st e).fzu = e.fzu ∧
    (raiseEnds i o r st e).blx = e.blx ∧ (raiseEnds i o r st e).anp = e.anp ∧ (raiseEnds i o r st e).stamps = e.stamps ∧
    (raiseEnds i o r st e).cpu = e.cpu := by
  simp -implicitDefEqProofs [raiseEnds]

@[simp] theorem haltGrille_frame (i : Fin 16) (s : Shutter) (cause : ShutterCause) (r : Reason) (e : Ev) :
    (haltGrille i s cause r e).toEnv = e.toEnv ∧ (haltGrille i s cause r e).msu = e.msu ∧
    (haltGrille i s cause r e).cht = e.cht ∧ (haltGrille i s cause r e).pnc = e.pnc ∧
    (haltGrille i s cause r e).fzu = e.fzu ∧ (haltGrille i s cause r e).blx = e.blx ∧
    (haltGrille i s cause r e).anp = e.anp ∧ (haltGrille i s cause r e).stamps = e.stamps ∧
    (haltGrille i s cause r e).cpu = e.cpu := by
  unfold haltGrille; (repeat' split) <;> simp -implicitDefEqProofs [*]

@[simp] theorem release_frame (i : Fin 16) (s : Shutter) (cause : ShutterCause) (e : Ev) :
    (release i s cause e).toEnv = e.toEnv ∧ (release i s cause e).msu = e.msu ∧ (release i s cause e).cht = e.cht ∧
    (release i s cause e).pnc = e.pnc ∧ (release i s cause e).fzu = e.fzu ∧ (release i s cause e).blx = e.blx ∧
    (release i s cause e).anp = e.anp ∧ (release i s cause e).stamps = e.stamps ∧ (release i s cause e).cpu = e.cpu := by
  simp -implicitDefEqProofs [release]

@[simp] theorem releaseForced_frame (i : Fin 16) (s : Shutter) (cause : ShutterCause) (e : Ev) :
    (releaseForced i s cause e).toEnv = e.toEnv ∧ (releaseForced i s cause e).msu = e.msu ∧
    (releaseForced i s cause e).cht = e.cht ∧ (releaseForced i s cause e).pnc = e.pnc ∧
    (releaseForced i s cause e).fzu = e.fzu ∧ (releaseForced i s cause e).blx = e.blx ∧
    (releaseForced i s cause e).anp = e.anp ∧ (releaseForced i s cause e).stamps = e.stamps ∧
    (releaseForced i s cause e).cpu = e.cpu := by
  simp -implicitDefEqProofs [releaseForced]

@[simp] theorem reportForced_frame (forced : BitVec 16) (cause : ForcedCause) (e : Ev) :
    (reportForced forced cause e).toEnv = e.toEnv ∧ (reportForced forced cause e).msu = e.msu ∧
    (reportForced forced cause e).cht = e.cht ∧ (reportForced forced cause e).pnc = e.pnc ∧
    (reportForced forced cause e).shc = e.shc ∧ (reportForced forced cause e).fzu = e.fzu ∧
    (reportForced forced cause e).blx = e.blx ∧ (reportForced forced cause e).anp = e.anp ∧
    (reportForced forced cause e).cpu = e.cpu := by
  unfold reportForced; (repeat' split) <;> simp -implicitDefEqProofs [*]

@[simp] theorem fireClosed_frame (i : Fin 16) (s : Shutter) (e : Ev) :
    (fireClosed i s e).toEnv = e.toEnv ∧ (fireClosed i s e).msu = e.msu ∧ (fireClosed i s e).cht = e.cht ∧
    (fireClosed i s e).pnc = e.pnc ∧ (fireClosed i s e).fzu = e.fzu ∧ (fireClosed i s e).blx = e.blx ∧
    (fireClosed i s e).anp = e.anp ∧ (fireClosed i s e).stamps = e.stamps ∧ (fireClosed i s e).cpu = e.cpu := by
  simp -implicitDefEqProofs [fireClosed]

@[simp] theorem grilleClosed_frame (i : Fin 16) (s : Shutter) (e : Ev) :
    (grilleClosed i s e).toEnv = e.toEnv ∧ (grilleClosed i s e).msu = e.msu ∧ (grilleClosed i s e).cht = e.cht ∧
    (grilleClosed i s e).pnc = e.pnc ∧ (grilleClosed i s e).fzu = e.fzu ∧ (grilleClosed i s e).blx = e.blx ∧
    (grilleClosed i s e).anp = e.anp ∧ (grilleClosed i s e).stamps = e.stamps ∧ (grilleClosed i s e).cpu = e.cpu := by
  simp -implicitDefEqProofs [grilleClosed]

@[simp] theorem raiseDone_frame (i : Fin 16) (s : Shutter) (e : Ev) :
    (raiseDone i s e).toEnv = e.toEnv ∧ (raiseDone i s e).msu = e.msu ∧ (raiseDone i s e).cht = e.cht ∧
    (raiseDone i s e).pnc = e.pnc ∧ (raiseDone i s e).fzu = e.fzu ∧ (raiseDone i s e).blx = e.blx ∧
    (raiseDone i s e).anp = e.anp ∧ (raiseDone i s e).stamps = e.stamps ∧ (raiseDone i s e).cpu = e.cpu := by
  simp -implicitDefEqProofs [raiseDone]

@[simp] theorem limitConflict_frame (i : Fin 16) (e : Ev) :
    (limitConflict i e).toEnv = e.toEnv ∧ (limitConflict i e).msu = e.msu ∧ (limitConflict i e).cht = e.cht ∧
    (limitConflict i e).pnc = e.pnc ∧ (limitConflict i e).fzu = e.fzu ∧ (limitConflict i e).blx = e.blx ∧
    (limitConflict i e).anp = e.anp ∧ (limitConflict i e).stamps = e.stamps ∧ (limitConflict i e).cpu = e.cpu := by
  simp only [limitConflict]; (repeat' split) <;> simp -implicitDefEqProofs [*]

@[simp] theorem closedLimActive_frame (i : Fin 16) (e : Ev) :
    (closedLimActive i e).toEnv = e.toEnv ∧ (closedLimActive i e).msu = e.msu ∧ (closedLimActive i e).cht = e.cht ∧
    (closedLimActive i e).pnc = e.pnc ∧ (closedLimActive i e).fzu = e.fzu ∧ (closedLimActive i e).blx = e.blx ∧
    (closedLimActive i e).anp = e.anp ∧ (closedLimActive i e).stamps = e.stamps ∧ (closedLimActive i e).cpu = e.cpu := by
  simp only [closedLimActive]; (repeat' split) <;> simp -implicitDefEqProofs [*]

@[simp] theorem openLimActive_frame (i : Fin 16) (e : Ev) :
    (openLimActive i e).toEnv = e.toEnv ∧ (openLimActive i e).msu = e.msu ∧ (openLimActive i e).cht = e.cht ∧
    (openLimActive i e).pnc = e.pnc ∧ (openLimActive i e).fzu = e.fzu ∧ (openLimActive i e).blx = e.blx ∧
    (openLimActive i e).anp = e.anp ∧ (openLimActive i e).stamps = e.stamps ∧ (openLimActive i e).cpu = e.cpu := by
  simp only [openLimActive]; (repeat' split) <;> simp -implicitDefEqProofs [*]

@[simp] theorem limitLost_frame (i : Fin 16) (s : Shutter) (e : Ev) :
    (limitLost i s e).toEnv = e.toEnv ∧ (limitLost i s e).msu = e.msu ∧ (limitLost i s e).cht.settings = e.cht.settings ∧
    (limitLost i s e).cht.landings = e.cht.landings ∧ (limitLost i s e).cht.clearList = e.cht.clearList ∧
    (limitLost i s e).cht.position = e.cht.position ∧ (limitLost i s e).cht.settled = e.cht.settled ∧
    (limitLost i s e).cht.settleWait = e.cht.settleWait ∧ (limitLost i s e).fzu = e.fzu ∧ (limitLost i s e).blx = e.blx ∧
    (limitLost i s e).anp = e.anp ∧ (limitLost i s e).cpu.programme = e.cpu.programme ∧
    (limitLost i s e).cpu.start = e.cpu.start ∧ (limitLost i s e).cpu.run.isSome = e.cpu.run.isSome := by
  unfold limitLost; (repeat' split) <;> simp -implicitDefEqProofs [*, apply_ite Cht.settings, apply_ite Cht.landings, apply_ite Cht.clearList, apply_ite Cht.position, apply_ite Cht.settled, apply_ite Cht.settleWait, apply_ite Cpu.programme, apply_ite Cpu.start, apply_ite Cpu.run, apply_ite Option.isSome]

@[simp] theorem openLimInactive_frame (i : Fin 16) (e : Ev) :
    (openLimInactive i e).toEnv = e.toEnv ∧ (openLimInactive i e).msu = e.msu ∧
    (openLimInactive i e).cht.settings = e.cht.settings ∧ (openLimInactive i e).cht.landings = e.cht.landings ∧
    (openLimInactive i e).cht.clearList = e.cht.clearList ∧ (openLimInactive i e).cht.position = e.cht.position ∧
    (openLimInactive i e).cht.settled = e.cht.settled ∧ (openLimInactive i e).cht.settleWait = e.cht.settleWait ∧
    (openLimInactive i e).fzu = e.fzu ∧ (openLimInactive i e).blx = e.blx ∧ (openLimInactive i e).anp = e.anp ∧
    (openLimInactive i e).cpu.programme = e.cpu.programme ∧ (openLimInactive i e).cpu.start = e.cpu.start ∧
    (openLimInactive i e).cpu.run.isSome = e.cpu.run.isSome := by
  unfold openLimInactive; (repeat' split) <;> simp -implicitDefEqProofs [*]

@[simp] theorem closedLimInactive_frame (i : Fin 16) (e : Ev) :
    (closedLimInactive i e).toEnv = e.toEnv ∧ (closedLimInactive i e).msu = e.msu ∧ (closedLimInactive i e).cht = e.cht ∧
    (closedLimInactive i e).pnc = e.pnc ∧ (closedLimInactive i e).fzu = e.fzu ∧ (closedLimInactive i e).blx = e.blx ∧
    (closedLimInactive i e).anp = e.anp ∧ (closedLimInactive i e).stamps = e.stamps ∧ (closedLimInactive i e).cpu = e.cpu := by
  unfold closedLimInactive; (repeat' split) <;> simp -implicitDefEqProofs [*]

@[simp] theorem obstruct_frame (i : Fin 16) (s : Shutter) (e : Ev) :
    (obstruct i s e).toEnv = e.toEnv ∧ (obstruct i s e).msu = e.msu ∧ (obstruct i s e).cht = e.cht ∧
    (obstruct i s e).pnc = e.pnc ∧ (obstruct i s e).fzu = e.fzu ∧ (obstruct i s e).blx = e.blx ∧
    (obstruct i s e).anp = e.anp ∧ (obstruct i s e).stamps = e.stamps ∧ (obstruct i s e).cpu = e.cpu := by
  simp only [obstruct]; (repeat' split) <;> simp -implicitDefEqProofs [*]

@[simp] theorem edgeStruck_frame (i : Fin 16) (e : Ev) :
    (edgeStruck i e).toEnv = e.toEnv ∧ (edgeStruck i e).msu = e.msu ∧ (edgeStruck i e).cht = e.cht ∧
    (edgeStruck i e).pnc = e.pnc ∧ (edgeStruck i e).fzu = e.fzu ∧ (edgeStruck i e).blx = e.blx ∧
    (edgeStruck i e).anp = e.anp ∧ (edgeStruck i e).stamps = e.stamps ∧ (edgeStruck i e).cpu = e.cpu := by
  unfold edgeStruck; (repeat' split) <;> simp -implicitDefEqProofs [*]

@[simp] theorem edgeCleared_frame (i : Fin 16) (e : Ev) :
    (edgeCleared i e).toEnv = e.toEnv ∧ (edgeCleared i e).msu = e.msu ∧ (edgeCleared i e).cht = e.cht ∧
    (edgeCleared i e).pnc = e.pnc ∧ (edgeCleared i e).fzu = e.fzu ∧ (edgeCleared i e).blx = e.blx ∧
    (edgeCleared i e).anp = e.anp ∧ (edgeCleared i e).stamps = e.stamps ∧ (edgeCleared i e).cpu = e.cpu := by
  unfold edgeCleared; (repeat' split) <;> simp -implicitDefEqProofs [*]

@[simp] theorem retry_frame (i : Fin 16) (s : Shutter) (cause : ShutterCause) (e : Ev) :
    (retry i s cause e).toEnv = e.toEnv ∧ (retry i s cause e).msu = e.msu ∧ (retry i s cause e).cht = e.cht ∧
    (retry i s cause e).pnc = e.pnc ∧ (retry i s cause e).fzu = e.fzu ∧ (retry i s cause e).blx = e.blx ∧
    (retry i s cause e).anp = e.anp ∧ (retry i s cause e).stamps = e.stamps ∧ (retry i s cause e).cpu = e.cpu := by
  simp -implicitDefEqProofs [retry]

@[simp] theorem edgeClearOut_frame (i : Fin 16) (e : Ev) :
    (edgeClearOut i e).toEnv = e.toEnv ∧ (edgeClearOut i e).msu = e.msu ∧ (edgeClearOut i e).cht = e.cht ∧
    (edgeClearOut i e).pnc = e.pnc ∧ (edgeClearOut i e).fzu = e.fzu ∧ (edgeClearOut i e).blx = e.blx ∧
    (edgeClearOut i e).anp = e.anp ∧ (edgeClearOut i e).stamps = e.stamps ∧ (edgeClearOut i e).cpu = e.cpu := by
  unfold edgeClearOut; (repeat' split) <;> simp -implicitDefEqProofs [*]

@[simp] theorem descentOut_frame (i : Fin 16) (e : Ev) :
    (descentOut i e).toEnv = e.toEnv ∧ (descentOut i e).msu = e.msu ∧ (descentOut i e).cht = e.cht ∧
    (descentOut i e).pnc = e.pnc ∧ (descentOut i e).fzu = e.fzu ∧ (descentOut i e).blx = e.blx ∧
    (descentOut i e).anp = e.anp ∧ (descentOut i e).stamps = e.stamps ∧ (descentOut i e).cpu = e.cpu := by
  unfold descentOut; (repeat' split) <;> simp -implicitDefEqProofs [*]

@[simp] theorem magnetOut_frame (i : Fin 16) (e : Ev) :
    (magnetOut i e).toEnv = e.toEnv ∧ (magnetOut i e).msu = e.msu ∧ (magnetOut i e).cht = e.cht ∧
    (magnetOut i e).pnc = e.pnc ∧ (magnetOut i e).fzu = e.fzu ∧ (magnetOut i e).blx = e.blx ∧
    (magnetOut i e).anp = e.anp ∧ (magnetOut i e).stamps = e.stamps ∧ (magnetOut i e).cpu = e.cpu := by
  unfold magnetOut; (repeat' split) <;> simp -implicitDefEqProofs [*]

@[simp] theorem raiseOut_frame (i : Fin 16) (e : Ev) :
    (raiseOut i e).toEnv = e.toEnv ∧ (raiseOut i e).msu = e.msu ∧ (raiseOut i e).cht = e.cht ∧
    (raiseOut i e).pnc = e.pnc ∧ (raiseOut i e).fzu = e.fzu ∧ (raiseOut i e).blx = e.blx ∧ (raiseOut i e).anp = e.anp ∧
    (raiseOut i e).stamps = e.stamps ∧ (raiseOut i e).cpu = e.cpu := by
  unfold raiseOut; (repeat' split) <;> simp -implicitDefEqProofs [*]

@[simp] theorem claimRelease_frame (z : Fin 6) (i : Fin 16) (r : Ev × BitVec 16) :
    (claimRelease z i r).1.toEnv = r.1.toEnv ∧ (claimRelease z i r).1.msu = r.1.msu ∧
    (claimRelease z i r).1.cht = r.1.cht ∧ (claimRelease z i r).1.pnc = r.1.pnc ∧ (claimRelease z i r).1.fzu = r.1.fzu ∧
    (claimRelease z i r).1.blx = r.1.blx ∧ (claimRelease z i r).1.anp = r.1.anp ∧
    (claimRelease z i r).1.stamps = r.1.stamps ∧ (claimRelease z i r).1.cpu = r.1.cpu := by
  unfold claimRelease; (repeat' split) <;> simp -implicitDefEqProofs [*]

@[simp] theorem releaseZone_frame (z : Fin 6) (e : Ev) :
    (releaseZone z e).toEnv = e.toEnv ∧ (releaseZone z e).msu = e.msu ∧ (releaseZone z e).cht = e.cht ∧
    (releaseZone z e).pnc = e.pnc ∧ (releaseZone z e).fzu = e.fzu ∧ (releaseZone z e).blx = e.blx ∧
    (releaseZone z e).anp = e.anp ∧ (releaseZone z e).cpu = e.cpu := by
  simp -implicitDefEqProofs [releaseZone]

@[simp] theorem zoneQuiet_frame (z : Fin 6) (e : Ev) :
    (zoneQuiet z e).toEnv = e.toEnv ∧ (zoneQuiet z e).msu = e.msu ∧ (zoneQuiet z e).cht = e.cht ∧
    (zoneQuiet z e).pnc = e.pnc ∧ (zoneQuiet z e).fzu = e.fzu ∧ (zoneQuiet z e).blx = e.blx ∧
    (zoneQuiet z e).anp = e.anp ∧ (zoneQuiet z e).stamps = e.stamps ∧ (zoneQuiet z e).cpu = e.cpu := by
  unfold zoneQuiet; refine ⟨forEach_app (·.toEnv) _ _ _ ?_, forEach_app (·.msu) _ _ _ ?_, forEach_app (·.cht) _ _ _ ?_, forEach_app (·.pnc) _ _ _ ?_, forEach_app (·.fzu) _ _ _ ?_, forEach_app (·.blx) _ _ _ ?_, forEach_app (·.anp) _ _ _ ?_, forEach_app (·.stamps) _ _ _ ?_, forEach_app (·.cpu) _ _ _ ?_⟩ <;> (intro _ _; (repeat' split) <;> simp -implicitDefEqProofs [*])

@[simp] theorem deadlineRelease_frame (e : Ev) :
    (deadlineRelease e).toEnv = e.toEnv ∧ (deadlineRelease e).msu = e.msu ∧ (deadlineRelease e).cht = e.cht ∧
    (deadlineRelease e).pnc = e.pnc ∧ (deadlineRelease e).fzu = e.fzu ∧ (deadlineRelease e).blx = e.blx ∧
    (deadlineRelease e).anp = e.anp ∧ (deadlineRelease e).cpu = e.cpu := by
  simp only [deadlineRelease, reportForced_frame]
  refine ⟨forEach_app (·.toEnv) _ _ _ ?_, forEach_app (·.msu) _ _ _ ?_, forEach_app (·.cht) _ _ _ ?_, forEach_app (·.pnc) _ _ _ ?_, forEach_app (·.fzu) _ _ _ ?_, forEach_app (·.blx) _ _ _ ?_, forEach_app (·.anp) _ _ _ ?_, forEach_app (·.cpu) _ _ _ ?_⟩ <;> (intro _ _; (repeat' split) <;> simp -implicitDefEqProofs [*])

@[simp] theorem reserveReleaseOne_frame (i : Fin 16) (r : Ev × BitVec 16) :
    (reserveReleaseOne i r).1.toEnv = r.1.toEnv ∧ (reserveReleaseOne i r).1.msu = r.1.msu ∧
    (reserveReleaseOne i r).1.cht = r.1.cht ∧ (reserveReleaseOne i r).1.pnc = r.1.pnc ∧
    (reserveReleaseOne i r).1.fzu = r.1.fzu ∧ (reserveReleaseOne i r).1.blx = r.1.blx ∧
    (reserveReleaseOne i r).1.anp = r.1.anp ∧ (reserveReleaseOne i r).1.stamps = r.1.stamps ∧
    (reserveReleaseOne i r).1.cpu = r.1.cpu := by
  simp only [reserveReleaseOne]; (repeat' split) <;> simp -implicitDefEqProofs [*]

@[simp] theorem reserveRelease_frame (cause : ForcedCause) (e : Ev) :
    (reserveRelease cause e).toEnv = e.toEnv ∧ (reserveRelease cause e).msu = e.msu ∧
    (reserveRelease cause e).cht = e.cht ∧ (reserveRelease cause e).pnc = e.pnc ∧ (reserveRelease cause e).fzu = e.fzu ∧
    (reserveRelease cause e).blx = e.blx ∧ (reserveRelease cause e).anp = e.anp ∧ (reserveRelease cause e).cpu = e.cpu := by
  simp -implicitDefEqProofs [reserveRelease]

@[simp] theorem treatGrille_frame (i : Fin 16) (e : Ev) :
    (treatGrille i e).toEnv = e.toEnv ∧ (treatGrille i e).msu = e.msu ∧ (treatGrille i e).cht = e.cht ∧
    (treatGrille i e).pnc = e.pnc ∧ (treatGrille i e).fzu = e.fzu ∧ (treatGrille i e).blx = e.blx ∧
    (treatGrille i e).anp = e.anp ∧ (treatGrille i e).stamps = e.stamps ∧ (treatGrille i e).cpu = e.cpu := by
  simp only [treatGrille]; (repeat' split) <;> simp -implicitDefEqProofs [*]

@[simp] theorem treatGrilles_frame (e : Ev) :
    (treatGrilles e).toEnv = e.toEnv ∧ (treatGrilles e).msu = e.msu ∧ (treatGrilles e).cht = e.cht ∧
    (treatGrilles e).pnc = e.pnc ∧ (treatGrilles e).fzu = e.fzu ∧ (treatGrilles e).blx = e.blx ∧
    (treatGrilles e).anp = e.anp ∧ (treatGrilles e).stamps = e.stamps ∧ (treatGrilles e).cpu = e.cpu := by
  simp -implicitDefEqProofs [treatGrilles]

@[simp] theorem withdrawGrille_frame (i : Fin 16) (e : Ev) :
    (withdrawGrille i e).toEnv = e.toEnv ∧ (withdrawGrille i e).msu = e.msu ∧ (withdrawGrille i e).cht = e.cht ∧
    (withdrawGrille i e).pnc = e.pnc ∧ (withdrawGrille i e).fzu = e.fzu ∧ (withdrawGrille i e).blx = e.blx ∧
    (withdrawGrille i e).anp = e.anp ∧ (withdrawGrille i e).stamps = e.stamps ∧ (withdrawGrille i e).cpu = e.cpu := by
  simp only [withdrawGrille]; (repeat' split) <;> simp -implicitDefEqProofs [*]

@[simp] theorem withdrawGrilles_frame (e : Ev) :
    (withdrawGrilles e).toEnv = e.toEnv ∧ (withdrawGrilles e).msu = e.msu ∧ (withdrawGrilles e).cht = e.cht ∧
    (withdrawGrilles e).pnc = e.pnc ∧ (withdrawGrilles e).fzu = e.fzu ∧ (withdrawGrilles e).blx = e.blx ∧
    (withdrawGrilles e).anp = e.anp ∧ (withdrawGrilles e).stamps = e.stamps ∧ (withdrawGrilles e).cpu = e.cpu := by
  simp -implicitDefEqProofs [withdrawGrilles]

@[simp] theorem forgetFireWaits_frame (e : Ev) :
    (forgetFireWaits e).toEnv = e.toEnv ∧ (forgetFireWaits e).msu = e.msu ∧ (forgetFireWaits e).cht = e.cht ∧
    (forgetFireWaits e).pnc = e.pnc ∧ (forgetFireWaits e).fzu = e.fzu ∧ (forgetFireWaits e).blx = e.blx ∧
    (forgetFireWaits e).anp = e.anp ∧ (forgetFireWaits e).stamps = e.stamps ∧ (forgetFireWaits e).cpu = e.cpu := by
  unfold forgetFireWaits; refine ⟨forEach_app (·.toEnv) _ _ _ ?_, forEach_app (·.msu) _ _ _ ?_, forEach_app (·.cht) _ _ _ ?_, forEach_app (·.pnc) _ _ _ ?_, forEach_app (·.fzu) _ _ _ ?_, forEach_app (·.blx) _ _ _ ?_, forEach_app (·.anp) _ _ _ ?_, forEach_app (·.stamps) _ _ _ ?_, forEach_app (·.cpu) _ _ _ ?_⟩ <;> (intro _ _; (repeat' split) <;> simp -implicitDefEqProofs [*])

@[simp] theorem endSupplyWaits_frame (e : Ev) :
    (endSupplyWaits e).toEnv = e.toEnv ∧ (endSupplyWaits e).msu = e.msu ∧ (endSupplyWaits e).cht = e.cht ∧
    (endSupplyWaits e).pnc = e.pnc ∧ (endSupplyWaits e).fzu = e.fzu ∧ (endSupplyWaits e).blx = e.blx ∧
    (endSupplyWaits e).anp = e.anp ∧ (endSupplyWaits e).stamps = e.stamps ∧ (endSupplyWaits e).cpu = e.cpu := by
  unfold endSupplyWaits; refine ⟨forEach_app (·.toEnv) _ _ _ ?_, forEach_app (·.msu) _ _ _ ?_, forEach_app (·.cht) _ _ _ ?_, forEach_app (·.pnc) _ _ _ ?_, forEach_app (·.fzu) _ _ _ ?_, forEach_app (·.blx) _ _ _ ?_, forEach_app (·.anp) _ _ _ ?_, forEach_app (·.stamps) _ _ _ ?_, forEach_app (·.cpu) _ _ _ ?_⟩ <;> (intro _ _; (repeat' split) <;> simp -implicitDefEqProofs [*])

@[simp] theorem settleStation_frame (i : Fin 16) (e : Ev) :
    (settleStation i e).toEnv = e.toEnv ∧ (settleStation i e).msu = e.msu ∧ (settleStation i e).cht = e.cht ∧
    (settleStation i e).pnc = e.pnc ∧ (settleStation i e).fzu = e.fzu ∧ (settleStation i e).blx = e.blx ∧
    (settleStation i e).anp = e.anp ∧ (settleStation i e).stamps = e.stamps ∧ (settleStation i e).cpu = e.cpu := by
  unfold settleStation; (repeat' split) <;> simp -implicitDefEqProofs [*]

@[simp] theorem settleStations_frame (e : Ev) :
    (settleStations e).toEnv = e.toEnv ∧ (settleStations e).msu = e.msu ∧ (settleStations e).cht = e.cht ∧
    (settleStations e).pnc = e.pnc ∧ (settleStations e).fzu = e.fzu ∧ (settleStations e).blx = e.blx ∧
    (settleStations e).anp = e.anp ∧ (settleStations e).stamps = e.stamps ∧ (settleStations e).cpu = e.cpu := by
  simp -implicitDefEqProofs [settleStations]

@[simp] theorem close_frame (i : Fin 16) (s : Shutter) (cause : ShutterCause) (e : Ev) :
    (close i s cause e).toEnv = e.toEnv ∧ (close i s cause e).msu = e.msu ∧ (close i s cause e).cht = e.cht ∧
    (close i s cause e).pnc = e.pnc ∧ (close i s cause e).fzu = e.fzu ∧ (close i s cause e).blx = e.blx ∧
    (close i s cause e).anp = e.anp ∧ (close i s cause e).stamps = e.stamps ∧ (close i s cause e).cpu = e.cpu := by
  unfold close; (repeat' split) <;> simp -implicitDefEqProofs [*]

@[simp] theorem raise_frame (i : Fin 16) (s : Shutter) (e : Ev) :
    (raise i s e).toEnv = e.toEnv ∧ (raise i s e).msu = e.msu ∧ (raise i s e).cht = e.cht ∧ (raise i s e).pnc = e.pnc ∧
    (raise i s e).fzu = e.fzu ∧ (raise i s e).blx = e.blx ∧ (raise i s e).anp = e.anp ∧ (raise i s e).stamps = e.stamps ∧
    (raise i s e).cpu = e.cpu := by
  unfold raise; (repeat' split) <;> simp -implicitDefEqProofs [*]

@[simp] theorem rebuildStanding_frame (e : Ev) :
    (rebuildStanding e).toEnv = e.toEnv ∧ (rebuildStanding e).msu = e.msu ∧ (rebuildStanding e).cht = e.cht ∧
    (rebuildStanding e).pnc = e.pnc ∧ (rebuildStanding e).shc = e.shc ∧ (rebuildStanding e).fzu = e.fzu ∧
    (rebuildStanding e).anp = e.anp ∧ (rebuildStanding e).stamps = e.stamps ∧ (rebuildStanding e).cpu = e.cpu ∧
    (rebuildStanding e).blx.present = e.blx.present := by
  simp -implicitDefEqProofs [rebuildStanding]

@[simp] theorem reportCall_frame (c : Call) (o : CallOutcome) (line : Option (Fin 10)) (esc : Escalation) (r : Reason) (e : Ev) :
    (reportCall c o line esc r e).toEnv = e.toEnv ∧ (reportCall c o line esc r e).msu = e.msu ∧
    (reportCall c o line esc r e).cht = e.cht ∧ (reportCall c o line esc r e).pnc = e.pnc ∧
    (reportCall c o line esc r e).shc = e.shc ∧ (reportCall c o line esc r e).fzu = e.fzu ∧
    (reportCall c o line esc r e).blx = e.blx ∧ (reportCall c o line esc r e).anp = e.anp ∧
    (reportCall c o line esc r e).stamps = e.stamps ∧ (reportCall c o line esc r e).cpu = e.cpu := by
  simp -implicitDefEqProofs [reportCall]

@[simp] theorem purge_frame (classes : CallClass → Bool) (r : Reason) (e : Ev) :
    (purge classes r e).toEnv = e.toEnv ∧ (purge classes r e).msu = e.msu ∧ (purge classes r e).cht = e.cht ∧
    (purge classes r e).pnc = e.pnc ∧ (purge classes r e).shc = e.shc ∧ (purge classes r e).fzu = e.fzu ∧
    (purge classes r e).blx.present = e.blx.present ∧ (purge classes r e).anp = e.anp ∧
    (purge classes r e).stamps = e.stamps ∧ (purge classes r e).cpu = e.cpu := by
  simp -implicitDefEqProofs [purge]
  exact Blx.foldl_present _ _ _ (by intro b r; split <;> simp)

@[simp] theorem roundComplete_frame (r : Fin 3) (e : Ev) :
    (roundComplete r e).toEnv = e.toEnv ∧ (roundComplete r e).msu = e.msu ∧ (roundComplete r e).cht = e.cht ∧
    (roundComplete r e).pnc = e.pnc ∧ (roundComplete r e).shc = e.shc ∧ (roundComplete r e).fzu = e.fzu ∧
    (roundComplete r e).anp = e.anp ∧ (roundComplete r e).stamps = e.stamps ∧ (roundComplete r e).cpu = e.cpu ∧
    (roundComplete r e).blx.present = e.blx.present := by
  simp only [roundComplete]; (repeat' split) <;> simp -implicitDefEqProofs [*]

@[simp] theorem gapEnd_frame (r : Fin 3) (e : Ev) :
    (gapEnd r e).toEnv = e.toEnv ∧ (gapEnd r e).msu = e.msu ∧ (gapEnd r e).cht = e.cht ∧ (gapEnd r e).pnc = e.pnc ∧
    (gapEnd r e).shc = e.shc ∧ (gapEnd r e).fzu = e.fzu ∧ (gapEnd r e).anp = e.anp ∧ (gapEnd r e).stamps = e.stamps ∧
    (gapEnd r e).cpu = e.cpu ∧ (gapEnd r e).blx.present = e.blx.present := by
  simp only [gapEnd]; (repeat' split) <;> simp -implicitDefEqProofs [*]

@[simp] theorem escalate_frame (c : Call) (e : Ev) :
    (escalate c e).2.toEnv = e.toEnv ∧ (escalate c e).2.msu = e.msu ∧ (escalate c e).2.cht = e.cht ∧
    (escalate c e).2.pnc = e.pnc ∧ (escalate c e).2.shc = e.shc ∧ (escalate c e).2.fzu = e.fzu ∧
    (escalate c e).2.blx.present = e.blx.present ∧ (escalate c e).2.anp = e.anp ∧ (escalate c e).2.stamps = e.stamps ∧
    (escalate c e).2.cpu = e.cpu := by
  unfold escalate; dsimp only; split
  · rename_i h; simp -implicitDefEqProofs [Blx.merge_present h]
  · simp -implicitDefEqProofs

@[simp] theorem windowOut_frame (r : Fin 3) (e : Ev) :
    (windowOut r e).toEnv = e.toEnv ∧ (windowOut r e).msu = e.msu ∧ (windowOut r e).cht = e.cht ∧
    (windowOut r e).pnc = e.pnc ∧ (windowOut r e).shc = e.shc ∧ (windowOut r e).fzu = e.fzu ∧
    (windowOut r e).anp = e.anp ∧ (windowOut r e).stamps = e.stamps ∧ (windowOut r e).cpu = e.cpu ∧
    (windowOut r e).blx.present = e.blx.present := by
  unfold windowOut; (repeat' split) <;> simp -implicitDefEqProofs [*]

@[simp] theorem clearGuard_frame (r : Fin 3) (e : Ev) :
    (clearGuard r e).toEnv = e.toEnv ∧ (clearGuard r e).msu = e.msu ∧ (clearGuard r e).cht = e.cht ∧
    (clearGuard r e).pnc = e.pnc ∧ (clearGuard r e).shc = e.shc ∧ (clearGuard r e).fzu = e.fzu ∧
    (clearGuard r e).anp = e.anp ∧ (clearGuard r e).stamps = e.stamps ∧ (clearGuard r e).cpu = e.cpu ∧
    (clearGuard r e).blx.present = e.blx.present := by
  unfold clearGuard; (repeat' split) <;> simp -implicitDefEqProofs [*]

@[simp] theorem strokeEnd_frame (r : Fin 3) (e : Ev) :
    (strokeEnd r e).toEnv = e.toEnv ∧ (strokeEnd r e).msu = e.msu ∧ (strokeEnd r e).cht = e.cht ∧
    (strokeEnd r e).pnc = e.pnc ∧ (strokeEnd r e).shc = e.shc ∧ (strokeEnd r e).fzu = e.fzu ∧
    (strokeEnd r e).anp = e.anp ∧ (strokeEnd r e).stamps = e.stamps ∧ (strokeEnd r e).cpu = e.cpu ∧
    (strokeEnd r e).blx.present = e.blx.present := by
  simp only [strokeEnd]; (repeat' split) <;> simp -implicitDefEqProofs [*, apply_ite Blx.present]

@[simp] theorem answered_frame (line : Fin 10) (e : Ev) :
    (answered line e).toEnv = e.toEnv ∧ (answered line e).msu = e.msu ∧ (answered line e).cht = e.cht ∧
    (answered line e).pnc = e.pnc ∧ (answered line e).shc = e.shc ∧ (answered line e).fzu = e.fzu ∧
    (answered line e).anp = e.anp ∧ (answered line e).stamps = e.stamps ∧ (answered line e).cpu = e.cpu ∧
    (answered line e).blx.present = e.blx.present := by
  unfold answered; (repeat' split) <;> simp -implicitDefEqProofs [*]

@[simp] theorem reportAnn_frame (a : Announcement) (o : AnnOutcome) (c : AnnCause) (sk : Skip) (e : Ev) :
    (reportAnn a o c sk e).toEnv = e.toEnv ∧ (reportAnn a o c sk e).msu = e.msu ∧ (reportAnn a o c sk e).cht = e.cht ∧
    (reportAnn a o c sk e).pnc = e.pnc ∧ (reportAnn a o c sk e).shc = e.shc ∧ (reportAnn a o c sk e).fzu = e.fzu ∧
    (reportAnn a o c sk e).blx = e.blx ∧ (reportAnn a o c sk e).anp = e.anp ∧ (reportAnn a o c sk e).stamps = e.stamps ∧
    (reportAnn a o c sk e).cpu = e.cpu := by
  simp -implicitDefEqProofs [reportAnn]

@[simp] theorem endPlaying_frame (o : AnnOutcome) (c : AnnCause) (e : Ev) :
    (endPlaying o c e).toEnv = e.toEnv ∧ (endPlaying o c e).msu = e.msu ∧ (endPlaying o c e).cht = e.cht ∧
    (endPlaying o c e).pnc = e.pnc ∧ (endPlaying o c e).shc = e.shc ∧ (endPlaying o c e).fzu = e.fzu ∧
    (endPlaying o c e).blx = e.blx ∧ (endPlaying o c e).stamps = e.stamps ∧ (endPlaying o c e).cpu = e.cpu ∧
    (endPlaying o c e).anp.scripts = e.anp.scripts := by
  unfold endPlaying; (repeat' split) <;> simp -implicitDefEqProofs [*]

@[simp] theorem dropQueue_frame (c : AnnCause) (e : Ev) :
    (dropQueue c e).toEnv = e.toEnv ∧ (dropQueue c e).msu = e.msu ∧ (dropQueue c e).cht = e.cht ∧
    (dropQueue c e).pnc = e.pnc ∧ (dropQueue c e).shc = e.shc ∧ (dropQueue c e).fzu = e.fzu ∧
    (dropQueue c e).blx = e.blx ∧ (dropQueue c e).anp.scripts = e.anp.scripts ∧ (dropQueue c e).stamps = e.stamps ∧
    (dropQueue c e).cpu = e.cpu := by
  simp -implicitDefEqProofs [dropQueue]

@[simp] theorem sound_frame (slot : Nat) (cursor : Cursor) (e : Ev) :
    (sound slot cursor e).toEnv = e.toEnv ∧ (sound slot cursor e).msu = e.msu ∧ (sound slot cursor e).cht = e.cht ∧
    (sound slot cursor e).pnc = e.pnc ∧ (sound slot cursor e).shc = e.shc ∧ (sound slot cursor e).fzu = e.fzu ∧
    (sound slot cursor e).blx = e.blx ∧ (sound slot cursor e).anp.scripts = e.anp.scripts ∧
    (sound slot cursor e).stamps = e.stamps ∧ (sound slot cursor e).cpu = e.cpu := by
  simp -implicitDefEqProofs [sound]

@[simp] theorem scriptDone_frame (e : Ev) :
    (scriptDone e).toEnv = e.toEnv ∧ (scriptDone e).msu = e.msu ∧ (scriptDone e).cht = e.cht ∧
    (scriptDone e).pnc = e.pnc ∧ (scriptDone e).shc = e.shc ∧ (scriptDone e).fzu = e.fzu ∧ (scriptDone e).blx = e.blx ∧
    (scriptDone e).stamps = e.stamps ∧ (scriptDone e).cpu = e.cpu ∧ (scriptDone e).anp.scripts = e.anp.scripts := by
  unfold scriptDone; (repeat' split) <;> simp -implicitDefEqProofs [*]

@[simp] theorem seekFrom_frame (i rep : Nat) (e : Ev) :
    (seekFrom i rep e).toEnv = e.toEnv ∧ (seekFrom i rep e).msu = e.msu ∧ (seekFrom i rep e).cht = e.cht ∧
    (seekFrom i rep e).pnc = e.pnc ∧ (seekFrom i rep e).shc = e.shc ∧ (seekFrom i rep e).fzu = e.fzu ∧
    (seekFrom i rep e).blx = e.blx ∧ (seekFrom i rep e).stamps = e.stamps ∧ (seekFrom i rep e).cpu = e.cpu ∧
    (seekFrom i rep e).anp.scripts = e.anp.scripts := by
  simp only [seekFrom]; (repeat' split) <;> simp -implicitDefEqProofs [*]

@[simp] theorem beginScript_frame (e : Ev) :
    (beginScript e).toEnv = e.toEnv ∧ (beginScript e).msu = e.msu ∧ (beginScript e).cht = e.cht ∧
    (beginScript e).pnc = e.pnc ∧ (beginScript e).shc = e.shc ∧ (beginScript e).fzu = e.fzu ∧
    (beginScript e).blx = e.blx ∧ (beginScript e).stamps = e.stamps ∧ (beginScript e).cpu = e.cpu ∧
    (beginScript e).anp.scripts = e.anp.scripts := by
  unfold beginScript; (repeat' split) <;> simp -implicitDefEqProofs [*]

@[simp] theorem beginRound_frame (e : Ev) :
    (beginRound e).toEnv = e.toEnv ∧ (beginRound e).msu = e.msu ∧ (beginRound e).cht = e.cht ∧
    (beginRound e).pnc = e.pnc ∧ (beginRound e).shc = e.shc ∧ (beginRound e).fzu = e.fzu ∧ (beginRound e).blx = e.blx ∧
    (beginRound e).stamps = e.stamps ∧ (beginRound e).cpu = e.cpu ∧ (beginRound e).anp.scripts = e.anp.scripts := by
  simp -implicitDefEqProofs [beginRound]

@[simp] theorem phraseDone_frame (e : Ev) :
    (phraseDone e).toEnv = e.toEnv ∧ (phraseDone e).msu = e.msu ∧ (phraseDone e).cht = e.cht ∧
    (phraseDone e).pnc = e.pnc ∧ (phraseDone e).shc = e.shc ∧ (phraseDone e).fzu = e.fzu ∧ (phraseDone e).blx = e.blx ∧
    (phraseDone e).stamps = e.stamps ∧ (phraseDone e).cpu = e.cpu ∧ (phraseDone e).anp.scripts = e.anp.scripts := by
  simp only [phraseDone]; (repeat' split) <;> simp -implicitDefEqProofs [*]

@[simp] theorem takeOne_frame (a : Announcement) (rest : List Announcement) (e : Ev) :
    (takeOne a rest e).toEnv = e.toEnv ∧ (takeOne a rest e).msu = e.msu ∧ (takeOne a rest e).cht = e.cht ∧
    (takeOne a rest e).pnc = e.pnc ∧ (takeOne a rest e).shc = e.shc ∧ (takeOne a rest e).fzu = e.fzu ∧
    (takeOne a rest e).blx = e.blx ∧ (takeOne a rest e).stamps = e.stamps ∧ (takeOne a rest e).cpu = e.cpu ∧
    (takeOne a rest e).anp.scripts = e.anp.scripts := by
  simp only [takeOne]; (repeat' split) <;> simp -implicitDefEqProofs [*]

@[simp] theorem takeHeads_frame (n : Nat) (e : Ev) :
    (takeHeads n e).toEnv = e.toEnv ∧ (takeHeads n e).msu = e.msu ∧ (takeHeads n e).cht = e.cht ∧
    (takeHeads n e).pnc = e.pnc ∧ (takeHeads n e).shc = e.shc ∧ (takeHeads n e).fzu = e.fzu ∧
    (takeHeads n e).blx = e.blx ∧ (takeHeads n e).anp.scripts = e.anp.scripts ∧ (takeHeads n e).stamps = e.stamps ∧
    (takeHeads n e).cpu = e.cpu := by
  induction n generalizing e with
  | zero => simp [takeHeads]
  | succ n ih => unfold takeHeads; (repeat' split) <;> simp -implicitDefEqProofs [ih]

@[simp] theorem takeHead_frame (e : Ev) :
    (takeHead e).toEnv = e.toEnv ∧ (takeHead e).msu = e.msu ∧ (takeHead e).cht = e.cht ∧ (takeHead e).pnc = e.pnc ∧
    (takeHead e).shc = e.shc ∧ (takeHead e).fzu = e.fzu ∧ (takeHead e).blx = e.blx ∧ (takeHead e).stamps = e.stamps ∧
    (takeHead e).cpu = e.cpu ∧ (takeHead e).anp.scripts = e.anp.scripts := by
  simp -implicitDefEqProofs [takeHead]

@[simp] theorem preparingEnd_frame (e : Ev) :
    (preparingEnd e).toEnv = e.toEnv ∧ (preparingEnd e).msu = e.msu ∧ (preparingEnd e).cht = e.cht ∧
    (preparingEnd e).pnc = e.pnc ∧ (preparingEnd e).shc = e.shc ∧ (preparingEnd e).fzu = e.fzu ∧
    (preparingEnd e).blx = e.blx ∧ (preparingEnd e).stamps = e.stamps ∧ (preparingEnd e).cpu = e.cpu ∧
    (preparingEnd e).anp.scripts = e.anp.scripts := by
  unfold preparingEnd; (repeat' split) <;> simp -implicitDefEqProofs [*]

@[simp] theorem blockEnd_frame (e : Ev) :
    (blockEnd e).toEnv = e.toEnv ∧ (blockEnd e).msu = e.msu ∧ (blockEnd e).cht = e.cht ∧ (blockEnd e).pnc = e.pnc ∧
    (blockEnd e).shc = e.shc ∧ (blockEnd e).fzu = e.fzu ∧ (blockEnd e).blx = e.blx ∧ (blockEnd e).stamps = e.stamps ∧
    (blockEnd e).cpu = e.cpu ∧ (blockEnd e).anp.scripts = e.anp.scripts := by
  simp only [blockEnd]; (repeat' split) <;> simp -implicitDefEqProofs [*]

@[simp] theorem gapDone_frame (e : Ev) :
    (gapDone e).toEnv = e.toEnv ∧ (gapDone e).msu = e.msu ∧ (gapDone e).cht = e.cht ∧ (gapDone e).pnc = e.pnc ∧
    (gapDone e).shc = e.shc ∧ (gapDone e).fzu = e.fzu ∧ (gapDone e).blx = e.blx ∧ (gapDone e).stamps = e.stamps ∧
    (gapDone e).cpu = e.cpu ∧ (gapDone e).anp.scripts = e.anp.scripts := by
  unfold gapDone; (repeat' split) <;> simp -implicitDefEqProofs [*]

@[simp] theorem firePauseDone_frame (e : Ev) :
    (firePauseDone e).toEnv = e.toEnv ∧ (firePauseDone e).msu = e.msu ∧ (firePauseDone e).cht = e.cht ∧
    (firePauseDone e).pnc = e.pnc ∧ (firePauseDone e).shc = e.shc ∧ (firePauseDone e).fzu = e.fzu ∧
    (firePauseDone e).blx = e.blx ∧ (firePauseDone e).stamps = e.stamps ∧ (firePauseDone e).cpu = e.cpu ∧
    (firePauseDone e).anp.scripts = e.anp.scripts := by
  unfold firePauseDone; (repeat' split) <;> simp -implicitDefEqProofs [*]

@[simp] theorem startPlayback_frame (e : Ev) :
    (startPlayback e).toEnv = e.toEnv ∧ (startPlayback e).msu = e.msu ∧ (startPlayback e).cht = e.cht ∧
    (startPlayback e).pnc = e.pnc ∧ (startPlayback e).shc = e.shc ∧ (startPlayback e).fzu = e.fzu ∧
    (startPlayback e).blx = e.blx ∧ (startPlayback e).stamps = e.stamps ∧ (startPlayback e).cpu = e.cpu ∧
    (startPlayback e).anp.scripts = e.anp.scripts := by
  simp -implicitDefEqProofs [startPlayback]

@[simp] theorem playFire_frame (e : Ev) :
    (playFire e).toEnv = e.toEnv ∧ (playFire e).msu = e.msu ∧ (playFire e).cht = e.cht ∧ (playFire e).pnc = e.pnc ∧
    (playFire e).shc = e.shc ∧ (playFire e).fzu = e.fzu ∧ (playFire e).blx = e.blx ∧ (playFire e).stamps = e.stamps ∧
    (playFire e).cpu = e.cpu ∧ (playFire e).anp.scripts = e.anp.scripts := by
  unfold playFire; (repeat' split) <;> simp -implicitDefEqProofs [*]

@[simp] theorem stopFire_frame (e : Ev) :
    (stopFire e).toEnv = e.toEnv ∧ (stopFire e).msu = e.msu ∧ (stopFire e).cht = e.cht ∧ (stopFire e).pnc = e.pnc ∧
    (stopFire e).shc = e.shc ∧ (stopFire e).fzu = e.fzu ∧ (stopFire e).blx = e.blx ∧ (stopFire e).stamps = e.stamps ∧
    (stopFire e).cpu = e.cpu ∧ (stopFire e).anp.scripts = e.anp.scripts := by
  unfold stopFire; (repeat' split) <;> simp -implicitDefEqProofs [*]

@[simp] theorem purgeAnnouncements_frame (c : AnnCause) (e : Ev) :
    (purgeAnnouncements c e).toEnv = e.toEnv ∧ (purgeAnnouncements c e).msu = e.msu ∧
    (purgeAnnouncements c e).cht = e.cht ∧ (purgeAnnouncements c e).pnc = e.pnc ∧ (purgeAnnouncements c e).shc = e.shc ∧
    (purgeAnnouncements c e).fzu = e.fzu ∧ (purgeAnnouncements c e).blx = e.blx ∧
    (purgeAnnouncements c e).stamps = e.stamps ∧ (purgeAnnouncements c e).cpu = e.cpu ∧
    (purgeAnnouncements c e).anp.scripts = e.anp.scripts := by
  simp -implicitDefEqProofs [purgeAnnouncements]

@[simp] theorem setMode_frame (m : StoreMode) (cause : ModeCause) (e : Ev) :
    (setMode m cause e).toEnv = e.toEnv ∧ (setMode m cause e).msu.source = e.msu.source ∧
    (setMode m cause e).msu.batteryLow = e.msu.batteryLow ∧ (setMode m cause e).msu.wake = e.msu.wake ∧
    (setMode m cause e).msu.key = e.msu.key ∧ (setMode m cause e).msu.bellPermit = e.msu.bellPermit ∧
    (setMode m cause e).msu.announcePermit = e.msu.announcePermit ∧
    (setMode m cause e).msu.grillePermit = e.msu.grillePermit ∧ (setMode m cause e).cht = e.cht ∧
    (setMode m cause e).pnc = e.pnc ∧ (setMode m cause e).shc = e.shc ∧ (setMode m cause e).fzu = e.fzu ∧
    (setMode m cause e).blx = e.blx ∧ (setMode m cause e).anp = e.anp ∧ (setMode m cause e).stamps = e.stamps ∧
    (setMode m cause e).cpu = e.cpu := by
  simp -implicitDefEqProofs [setMode]

@[simp] theorem handWake_frame (e : Ev) :
    (handWake e).toEnv = e.toEnv ∧ (handWake e).msu.source = e.msu.source ∧
    (handWake e).msu.batteryLow = e.msu.batteryLow ∧ (handWake e).msu.wake = e.msu.wake ∧
    (handWake e).msu.key = e.msu.key ∧ (handWake e).msu.bellPermit = e.msu.bellPermit ∧
    (handWake e).msu.announcePermit = e.msu.announcePermit ∧ (handWake e).msu.grillePermit = e.msu.grillePermit ∧
    (handWake e).cht = e.cht ∧ (handWake e).pnc = e.pnc ∧ (handWake e).shc = e.shc ∧ (handWake e).fzu = e.fzu ∧
    (handWake e).anp = e.anp ∧ (handWake e).stamps = e.stamps ∧ (handWake e).cpu = e.cpu ∧
    (handWake e).blx.present = e.blx.present := by
  simp -implicitDefEqProofs [handWake]

@[simp] theorem enterNight_frame (cause : ModeCause) (e : Ev) :
    (enterNight cause e).toEnv = e.toEnv ∧ (enterNight cause e).msu.source = e.msu.source ∧
    (enterNight cause e).msu.batteryLow = e.msu.batteryLow ∧ (enterNight cause e).msu.wake = e.msu.wake ∧
    (enterNight cause e).msu.key = e.msu.key ∧ (enterNight cause e).msu.bellPermit = e.msu.bellPermit ∧
    (enterNight cause e).msu.announcePermit = e.msu.announcePermit ∧
    (enterNight cause e).msu.grillePermit = e.msu.grillePermit ∧ (enterNight cause e).cht = e.cht ∧
    (enterNight cause e).shc = e.shc ∧ (enterNight cause e).fzu = e.fzu ∧ (enterNight cause e).stamps = e.stamps ∧
    (enterNight cause e).cpu = e.cpu ∧ (enterNight cause e).anp.scripts = e.anp.scripts ∧
    (enterNight cause e).blx.present = e.blx.present := by
  simp only [enterNight]; (repeat' split) <;> simp -implicitDefEqProofs [*]

@[simp] theorem latch_frame (cause : BitVec 3) (e : Ev) :
    (latch cause e).toEnv = e.toEnv ∧ (latch cause e).msu.source = e.msu.source ∧
    (latch cause e).msu.batteryLow = e.msu.batteryLow ∧ (latch cause e).msu.key = e.msu.key ∧
    (latch cause e).msu.bellPermit = e.msu.bellPermit ∧ (latch cause e).msu.announcePermit = e.msu.announcePermit ∧
    (latch cause e).msu.grillePermit = e.msu.grillePermit ∧ (latch cause e).cht = e.cht ∧ (latch cause e).pnc = e.pnc ∧
    (latch cause e).shc = e.shc ∧ (latch cause e).fzu = e.fzu ∧ (latch cause e).anp = e.anp ∧
    (latch cause e).stamps = e.stamps ∧ (latch cause e).cpu = e.cpu ∧ (latch cause e).blx.present = e.blx.present := by
  unfold latch; (repeat' split) <;> simp -implicitDefEqProofs [*]

@[simp] theorem reportPower_frame (e : Ev) :
    (reportPower e).toEnv = e.toEnv ∧ (reportPower e).msu = e.msu ∧ (reportPower e).cht = e.cht ∧
    (reportPower e).pnc = e.pnc ∧ (reportPower e).shc = e.shc ∧ (reportPower e).fzu = e.fzu ∧
    (reportPower e).blx = e.blx ∧ (reportPower e).anp = e.anp ∧ (reportPower e).stamps = e.stamps ∧
    (reportPower e).cpu = e.cpu := by
  simp -implicitDefEqProofs [reportPower]

@[simp] theorem withdrawBells_frame (e : Ev) :
    (withdrawBells e).toEnv = e.toEnv ∧ (withdrawBells e).msu = e.msu ∧ (withdrawBells e).cht = e.cht ∧
    (withdrawBells e).pnc = e.pnc ∧ (withdrawBells e).shc = e.shc ∧ (withdrawBells e).fzu = e.fzu ∧
    (withdrawBells e).anp = e.anp ∧ (withdrawBells e).stamps = e.stamps ∧ (withdrawBells e).cpu = e.cpu ∧
    (withdrawBells e).blx.present = e.blx.present := by
  simp -implicitDefEqProofs [withdrawBells, apply_ite Blx.present]

@[simp] theorem withdrawSpeakers_frame (e : Ev) :
    (withdrawSpeakers e).toEnv = e.toEnv ∧ (withdrawSpeakers e).msu = e.msu ∧ (withdrawSpeakers e).cht = e.cht ∧
    (withdrawSpeakers e).pnc = e.pnc ∧ (withdrawSpeakers e).shc = e.shc ∧ (withdrawSpeakers e).fzu = e.fzu ∧
    (withdrawSpeakers e).blx = e.blx ∧ (withdrawSpeakers e).stamps = e.stamps ∧ (withdrawSpeakers e).cpu = e.cpu ∧
    (withdrawSpeakers e).anp.scripts = e.anp.scripts := by
  simp -implicitDefEqProofs [withdrawSpeakers, apply_ite Anp.scripts]

@[simp] theorem startHold_frame (e : Ev) :
    (startHold e).toEnv = e.toEnv ∧ (startHold e).msu = e.msu ∧ (startHold e).cht = e.cht ∧ (startHold e).pnc = e.pnc ∧
    (startHold e).fzu.zones = e.fzu.zones ∧ (startHold e).fzu.fire = e.fzu.fire ∧
    (startHold e).fzu.deadline = e.fzu.deadline ∧ (startHold e).blx = e.blx ∧ (startHold e).anp = e.anp ∧
    (startHold e).cpu = e.cpu := by
  simp only [startHold]; (repeat' split) <;> simp -implicitDefEqProofs [*, apply_ite Fzu.zones, apply_ite Fzu.fire, apply_ite Fzu.deadline]

@[simp] theorem toReserve_frame (e : Ev) :
    (toReserve e).toEnv = e.toEnv ∧ (toReserve e).msu.mode = e.msu.mode ∧
    (toReserve e).msu.batteryLow = e.msu.batteryLow ∧ (toReserve e).msu.wake = e.msu.wake ∧
    (toReserve e).msu.key = e.msu.key ∧ (toReserve e).msu.bellPermit = e.msu.bellPermit ∧
    (toReserve e).msu.announcePermit = e.msu.announcePermit ∧ (toReserve e).msu.grillePermit = e.msu.grillePermit ∧
    (toReserve e).cht.settings = e.cht.settings ∧ (toReserve e).cht.landings = e.cht.landings ∧
    (toReserve e).cht.clearList = e.cht.clearList ∧ (toReserve e).cht.position = e.cht.position ∧
    (toReserve e).cht.settled = e.cht.settled ∧ (toReserve e).cht.settleWait = e.cht.settleWait ∧
    (toReserve e).fzu.zones = e.fzu.zones ∧ (toReserve e).fzu.fire = e.fzu.fire ∧
    (toReserve e).fzu.deadline = e.fzu.deadline ∧ (toReserve e).blx.present = e.blx.present ∧
    (toReserve e).anp.scripts = e.anp.scripts ∧ (toReserve e).cpu.programme = e.cpu.programme ∧
    (toReserve e).cpu.start = e.cpu.start ∧ (toReserve e).cpu.run.isSome = e.cpu.run.isSome := by
  simp -implicitDefEqProofs [toReserve]

@[simp] theorem toMains_frame (e : Ev) :
    (toMains e).toEnv = e.toEnv ∧ (toMains e).msu.mode = e.msu.mode ∧ (toMains e).msu.batteryLow = e.msu.batteryLow ∧
    (toMains e).msu.wake = e.msu.wake ∧ (toMains e).msu.key = e.msu.key ∧ (toMains e).msu.bellPermit = e.msu.bellPermit ∧
    (toMains e).msu.announcePermit = e.msu.announcePermit ∧ (toMains e).msu.grillePermit = e.msu.grillePermit ∧
    (toMains e).cht = e.cht ∧ (toMains e).fzu.zones = e.fzu.zones ∧
    (toMains e).fzu.fire = e.fzu.fire ∧ (toMains e).fzu.deadline = e.fzu.deadline ∧ (toMains e).blx = e.blx ∧
    (toMains e).anp = e.anp ∧ (toMains e).cpu = e.cpu := by
  simp -implicitDefEqProofs [toMains]

/-- Without a fire a return of the mains leaves the stations as they are. -/
theorem toMains_shc {e : Ev} (h : e.fzu.fire = false) : (toMains e).shc = e.shc := by
  simp -implicitDefEqProofs [toMains, h]

@[simp] theorem spendHold_frame (e : Ev) :
    (spendHold e).toEnv = e.toEnv ∧ (spendHold e).msu = e.msu ∧ (spendHold e).cht = e.cht ∧ (spendHold e).pnc = e.pnc ∧
    (spendHold e).shc = e.shc ∧ (spendHold e).fzu.zones = e.fzu.zones ∧ (spendHold e).fzu.fire = e.fzu.fire ∧
    (spendHold e).fzu.deadline = e.fzu.deadline ∧ (spendHold e).blx = e.blx ∧ (spendHold e).anp = e.anp ∧
    (spendHold e).stamps = e.stamps ∧ (spendHold e).cpu = e.cpu := by
  unfold spendHold; (repeat' split) <;> simp -implicitDefEqProofs [*]

@[simp] theorem batteryLow_frame (e : Ev) :
    (batteryLow e).toEnv = e.toEnv ∧ (batteryLow e).msu.mode = e.msu.mode ∧ (batteryLow e).msu.source = e.msu.source ∧
    (batteryLow e).msu.wake = e.msu.wake ∧ (batteryLow e).msu.key = e.msu.key ∧
    (batteryLow e).msu.bellPermit = e.msu.bellPermit ∧ (batteryLow e).msu.announcePermit = e.msu.announcePermit ∧
    (batteryLow e).msu.grillePermit = e.msu.grillePermit ∧ (batteryLow e).cht = e.cht ∧ (batteryLow e).pnc = e.pnc ∧
    (batteryLow e).fzu.zones = e.fzu.zones ∧ (batteryLow e).fzu.fire = e.fzu.fire ∧
    (batteryLow e).fzu.deadline = e.fzu.deadline ∧ (batteryLow e).blx = e.blx ∧ (batteryLow e).anp = e.anp ∧
    (batteryLow e).cpu = e.cpu := by
  simp -implicitDefEqProofs [batteryLow, apply_ite Msu.mode, apply_ite Msu.source, apply_ite Msu.wake, apply_ite Msu.key, apply_ite Msu.bellPermit, apply_ite Msu.announcePermit, apply_ite Msu.grillePermit, apply_ite Fzu.zones, apply_ite Fzu.fire, apply_ite Fzu.deadline]

@[simp] theorem batteryGood_frame (e : Ev) :
    (batteryGood e).toEnv = e.toEnv ∧ (batteryGood e).msu.mode = e.msu.mode ∧ (batteryGood e).msu.source = e.msu.source ∧
    (batteryGood e).msu.wake = e.msu.wake ∧ (batteryGood e).msu.key = e.msu.key ∧
    (batteryGood e).msu.bellPermit = e.msu.bellPermit ∧ (batteryGood e).msu.announcePermit = e.msu.announcePermit ∧
    (batteryGood e).msu.grillePermit = e.msu.grillePermit ∧ (batteryGood e).cht = e.cht ∧ (batteryGood e).pnc = e.pnc ∧
    (batteryGood e).fzu = e.fzu ∧ (batteryGood e).blx = e.blx ∧
    (batteryGood e).anp = e.anp ∧ (batteryGood e).stamps = e.stamps ∧ (batteryGood e).cpu = e.cpu := by
  simp -implicitDefEqProofs [batteryGood]

/-- Without a fire the battery-low flag's clearing leaves the stations as they are. -/
theorem batteryGood_shc {e : Ev} (h : e.fzu.fire = false) : (batteryGood e).shc = e.shc := by
  simp -implicitDefEqProofs [batteryGood, h]

@[simp] theorem loadPermits_frame (bells announcements grilles : Bool) (e : Ev) :
    (loadPermits bells announcements grilles e).toEnv = e.toEnv ∧
    (loadPermits bells announcements grilles e).msu.mode = e.msu.mode ∧
    (loadPermits bells announcements grilles e).msu.source = e.msu.source ∧
    (loadPermits bells announcements grilles e).msu.batteryLow = e.msu.batteryLow ∧
    (loadPermits bells announcements grilles e).msu.wake = e.msu.wake ∧
    (loadPermits bells announcements grilles e).msu.key = e.msu.key ∧
    (loadPermits bells announcements grilles e).cht = e.cht ∧ (loadPermits bells announcements grilles e).pnc = e.pnc ∧
    (loadPermits bells announcements grilles e).fzu = e.fzu ∧
    (loadPermits bells announcements grilles e).stamps = e.stamps ∧
    (loadPermits bells announcements grilles e).cpu = e.cpu ∧
    (loadPermits bells announcements grilles e).anp.scripts = e.anp.scripts ∧
    (loadPermits bells announcements grilles e).blx.present = e.blx.present := by
  simp -implicitDefEqProofs [loadPermits, apply_ite Msu.mode, apply_ite Msu.source, apply_ite Msu.batteryLow, apply_ite Msu.wake, apply_ite Msu.key, apply_ite Anp.scripts, apply_ite Blx.present]

@[simp] theorem writeZone_frame (z : Fin 6) (new : Zone) (e : Ev) :
    (writeZone z new e).toEnv = e.toEnv ∧ (writeZone z new e).msu = e.msu ∧ (writeZone z new e).cht = e.cht ∧
    (writeZone z new e).pnc = e.pnc ∧ (writeZone z new e).shc = e.shc ∧ (writeZone z new e).blx = e.blx ∧
    (writeZone z new e).anp = e.anp ∧ (writeZone z new e).stamps = e.stamps ∧ (writeZone z new e).cpu = e.cpu := by
  simp only [writeZone]; (repeat' split) <;> simp -implicitDefEqProofs [*]

@[simp] theorem reportFire_frame (z : Option (Fin 6)) (e : Ev) :
    (reportFire z e).toEnv = e.toEnv ∧ (reportFire z e).msu = e.msu ∧ (reportFire z e).cht = e.cht ∧
    (reportFire z e).pnc = e.pnc ∧ (reportFire z e).shc = e.shc ∧ (reportFire z e).fzu = e.fzu ∧
    (reportFire z e).blx = e.blx ∧ (reportFire z e).anp = e.anp ∧ (reportFire z e).stamps = e.stamps ∧
    (reportFire z e).cpu = e.cpu := by
  simp -implicitDefEqProofs [reportFire]

@[simp] theorem handZone_frame (z : Fin 6) (st : ZoneState) (e : Ev) :
    (handZone z st e).toEnv = e.toEnv ∧ (handZone z st e).msu = e.msu ∧ (handZone z st e).cht = e.cht ∧
    (handZone z st e).pnc = e.pnc ∧ (handZone z st e).fzu = e.fzu ∧ (handZone z st e).blx = e.blx ∧
    (handZone z st e).anp = e.anp ∧ (handZone z st e).cpu = e.cpu := by
  unfold handZone; (repeat' split) <;> simp -implicitDefEqProofs [*]

@[simp] theorem fireBegins_frame (e : Ev) :
    (fireBegins e).toEnv = e.toEnv ∧ (fireBegins e).msu = e.msu ∧ (fireBegins e).cht.settings = e.cht.settings ∧
    (fireBegins e).cht.landings = e.cht.landings ∧ (fireBegins e).cht.clearList = e.cht.clearList ∧
    (fireBegins e).cht.position = e.cht.position ∧ (fireBegins e).cht.settled = e.cht.settled ∧
    (fireBegins e).cht.settleWait = e.cht.settleWait ∧ (fireBegins e).shc = e.shc ∧ (fireBegins e).fzu = e.fzu ∧
    (fireBegins e).stamps = e.stamps ∧ (fireBegins e).cpu.programme = e.cpu.programme ∧
    (fireBegins e).cpu.start = e.cpu.start ∧ (fireBegins e).cpu.run.isSome = e.cpu.run.isSome ∧
    (fireBegins e).anp.scripts = e.anp.scripts ∧ (fireBegins e).blx.present = e.blx.present := by
  simp -implicitDefEqProofs [fireBegins]

@[simp] theorem fireEnds_frame (e : Ev) :
    (fireEnds e).toEnv = e.toEnv ∧ (fireEnds e).msu = e.msu ∧ (fireEnds e).cht = e.cht ∧ (fireEnds e).fzu = e.fzu ∧
    (fireEnds e).stamps = e.stamps ∧ (fireEnds e).cpu = e.cpu ∧ (fireEnds e).anp.scripts = e.anp.scripts ∧
    (fireEnds e).blx.present = e.blx.present := by
  simp -implicitDefEqProofs [fireEnds]

@[simp] theorem changeZone_frame (z : Fin 6) (new : Zone) (cause : ZoneCause) (e : Ev) :
    (changeZone z new cause e).toEnv = e.toEnv ∧ (changeZone z new cause e).msu = e.msu ∧
    (changeZone z new cause e).cht.settings = e.cht.settings ∧ (changeZone z new cause e).cht.landings = e.cht.landings ∧
    (changeZone z new cause e).cht.clearList = e.cht.clearList ∧
    (changeZone z new cause e).cht.position = e.cht.position ∧ (changeZone z new cause e).cht.settled = e.cht.settled ∧
    (changeZone z new cause e).cht.settleWait = e.cht.settleWait ∧
    (changeZone z new cause e).cpu.programme = e.cpu.programme ∧ (changeZone z new cause e).cpu.start = e.cpu.start ∧
    (changeZone z new cause e).cpu.run.isSome = e.cpu.run.isSome ∧
    (changeZone z new cause e).anp.scripts = e.anp.scripts ∧ (changeZone z new cause e).blx.present = e.blx.present := by
  simp only [changeZone]; (repeat' split) <;> simp -implicitDefEqProofs [*, apply_ite Cht.settings, apply_ite Cht.landings, apply_ite Cht.clearList, apply_ite Cht.position, apply_ite Cht.settled, apply_ite Cht.settleWait, apply_ite Cpu.programme, apply_ite Cpu.start, apply_ite Cpu.run, apply_ite Option.isSome, apply_ite Anp.scripts, apply_ite Blx.present]

@[simp] theorem deadlineOut_frame (e : Ev) :
    (deadlineOut e).toEnv = e.toEnv ∧ (deadlineOut e).msu = e.msu ∧ (deadlineOut e).cht.settings = e.cht.settings ∧
    (deadlineOut e).cht.landings = e.cht.landings ∧ (deadlineOut e).cht.clearList = e.cht.clearList ∧
    (deadlineOut e).cht.position = e.cht.position ∧ (deadlineOut e).cht.settled = e.cht.settled ∧
    (deadlineOut e).cht.settleWait = e.cht.settleWait ∧ (deadlineOut e).fzu.zones = e.fzu.zones ∧
    (deadlineOut e).fzu.fire = e.fzu.fire ∧ (deadlineOut e).fzu.hold = e.fzu.hold ∧ (deadlineOut e).blx = e.blx ∧
    (deadlineOut e).anp = e.anp ∧ (deadlineOut e).cpu.programme = e.cpu.programme ∧
    (deadlineOut e).cpu.start = e.cpu.start ∧ (deadlineOut e).cpu.run.isSome = e.cpu.run.isSome := by
  simp only [deadlineOut]; (repeat' split) <;> simp -implicitDefEqProofs [*, apply_ite Cht.settings, apply_ite Cht.landings, apply_ite Cht.clearList, apply_ite Cht.position, apply_ite Cht.settled, apply_ite Cht.settleWait, apply_ite Fzu.zones, apply_ite Fzu.fire, apply_ite Fzu.hold, apply_ite Cpu.programme, apply_ite Cpu.start, apply_ite Cpu.run, apply_ite Option.isSome]

@[simp] theorem holdOut_frame (e : Ev) :
    (holdOut e).toEnv = e.toEnv ∧ (holdOut e).msu = e.msu ∧ (holdOut e).cht = e.cht ∧ (holdOut e).pnc = e.pnc ∧
    (holdOut e).fzu.zones = e.fzu.zones ∧ (holdOut e).fzu.fire = e.fzu.fire ∧ (holdOut e).fzu.deadline = e.fzu.deadline ∧
    (holdOut e).blx = e.blx ∧ (holdOut e).anp = e.anp ∧ (holdOut e).cpu = e.cpu := by
  simp only [holdOut]; (repeat' split) <;> simp -implicitDefEqProofs [*, apply_ite Fzu.zones, apply_ite Fzu.fire, apply_ite Fzu.deadline]

theorem requestSweep_frame {c : Bool} {e e2 : Ev} (h : e.requestSweep c = .started e2) :
    e2.toEnv = e.toEnv ∧ e2.msu = e.msu ∧ e2.cht = e.cht ∧ e2.shc = e.shc ∧ e2.fzu = e.fzu ∧ e2.blx = e.blx ∧
    e2.anp = e.anp ∧ e2.stamps = e.stamps ∧ e2.cpu = e.cpu := by
  unfold requestSweep at h; (repeat' split at h) <;> simp at h; subst h; simp -implicitDefEqProofs

@[simp] theorem takeSweep_frame (i : Nat) (e : Ev) :
    (takeSweep i e).toEnv = e.toEnv ∧ (takeSweep i e).msu = e.msu ∧ (takeSweep i e).cht = e.cht ∧
    (takeSweep i e).shc = e.shc ∧ (takeSweep i e).fzu = e.fzu ∧ (takeSweep i e).blx = e.blx ∧
    (takeSweep i e).anp = e.anp ∧ (takeSweep i e).stamps = e.stamps ∧ (takeSweep i e).cpu.programme = e.cpu.programme ∧
    (takeSweep i e).cpu.start = e.cpu.start ∧ (takeSweep i e).cpu.run.isSome = e.cpu.run.isSome := by
  unfold takeSweep; (repeat' split) <;> first | (simp -implicitDefEqProofs; done) | (rename_i h; simp -implicitDefEqProofs [requestSweep_frame h])

theorem requestClose_frame {i : Fin 16} {s : Shutter} {c : ShutterCause} {e e2 : Ev} (h : e.requestClose i s c = .started e2) :
    e2.toEnv = e.toEnv ∧ e2.msu = e.msu ∧ e2.cht = e.cht ∧ e2.pnc = e.pnc ∧ e2.fzu = e.fzu ∧ e2.blx = e.blx ∧
    e2.anp = e.anp ∧ e2.stamps = e.stamps ∧ e2.cpu = e.cpu := by
  unfold requestClose at h; (repeat' split at h) <;> simp at h; subst h; simp -implicitDefEqProofs

theorem claimClose_frame {i : Fin 16} {e e2 : Ev} (h : e.claimClose i = .started e2) :
    e2.toEnv = e.toEnv ∧ e2.msu = e.msu ∧ e2.cht = e.cht ∧ e2.pnc = e.pnc ∧ e2.fzu = e.fzu ∧ e2.blx = e.blx ∧
    e2.anp = e.anp ∧ e2.stamps = e.stamps ∧ e2.cpu = e.cpu := by
  unfold claimClose at h; (repeat' split at h) <;> first | exact requestClose_frame h | simp at h

@[simp] theorem claimGrille_frame (i : Fin 16) (r : Ev × List (Fin 16 × Reason)) :
    (claimGrille i r).1.toEnv = r.1.toEnv ∧ (claimGrille i r).1.msu = r.1.msu ∧ (claimGrille i r).1.cht = r.1.cht ∧
    (claimGrille i r).1.pnc = r.1.pnc ∧ (claimGrille i r).1.fzu = r.1.fzu ∧ (claimGrille i r).1.blx = r.1.blx ∧
    (claimGrille i r).1.anp = r.1.anp ∧ (claimGrille i r).1.stamps = r.1.stamps ∧ (claimGrille i r).1.cpu = r.1.cpu := by
  unfold claimGrille; (repeat' split) <;> first | (simp -implicitDefEqProofs; done) | (rename_i h; simp -implicitDefEqProofs [claimClose_frame h])

@[simp] theorem takeGrilles_frame (i : Nat) (set : BitVec 16) (e : Ev) :
    (takeGrilles i set e).toEnv = e.toEnv ∧ (takeGrilles i set e).msu = e.msu ∧ (takeGrilles i set e).cht = e.cht ∧
    (takeGrilles i set e).pnc = e.pnc ∧ (takeGrilles i set e).fzu = e.fzu ∧ (takeGrilles i set e).blx = e.blx ∧
    (takeGrilles i set e).anp = e.anp ∧ (takeGrilles i set e).stamps = e.stamps ∧
    (takeGrilles i set e).cpu.programme = e.cpu.programme ∧ (takeGrilles i set e).cpu.start = e.cpu.start ∧
    (takeGrilles i set e).cpu.run.isSome = e.cpu.run.isSome := by
  simp only [takeGrilles]; (repeat' split) <;> simp -implicitDefEqProofs

@[simp] theorem nightFalls_frame (i : Nat) (e : Ev) :
    (nightFalls i e).toEnv = e.toEnv ∧ (nightFalls i e).msu.source = e.msu.source ∧
    (nightFalls i e).msu.batteryLow = e.msu.batteryLow ∧ (nightFalls i e).msu.wake = e.msu.wake ∧
    (nightFalls i e).msu.key = e.msu.key ∧ (nightFalls i e).msu.bellPermit = e.msu.bellPermit ∧
    (nightFalls i e).msu.announcePermit = e.msu.announcePermit ∧ (nightFalls i e).msu.grillePermit = e.msu.grillePermit ∧
    (nightFalls i e).cht = e.cht ∧ (nightFalls i e).shc = e.shc ∧ (nightFalls i e).fzu = e.fzu ∧
    (nightFalls i e).blx.present = e.blx.present ∧ (nightFalls i e).anp.scripts = e.anp.scripts ∧
    (nightFalls i e).stamps = e.stamps ∧ (nightFalls i e).cpu.programme = e.cpu.programme ∧
    (nightFalls i e).cpu.start = e.cpu.start := by
  simp -implicitDefEqProofs [nightFalls]

@[simp] theorem takeNight_frame (i : Nat) (e : Ev) :
    (takeNight i e).toEnv = e.toEnv ∧ (takeNight i e).msu.source = e.msu.source ∧
    (takeNight i e).msu.batteryLow = e.msu.batteryLow ∧ (takeNight i e).msu.wake = e.msu.wake ∧
    (takeNight i e).msu.key = e.msu.key ∧ (takeNight i e).msu.bellPermit = e.msu.bellPermit ∧
    (takeNight i e).msu.announcePermit = e.msu.announcePermit ∧ (takeNight i e).msu.grillePermit = e.msu.grillePermit ∧
    (takeNight i e).cht = e.cht ∧ (takeNight i e).shc = e.shc ∧ (takeNight i e).fzu = e.fzu ∧
    (takeNight i e).blx.present = e.blx.present ∧ (takeNight i e).anp.scripts = e.anp.scripts ∧
    (takeNight i e).stamps = e.stamps ∧ (takeNight i e).cpu.programme = e.cpu.programme ∧
    (takeNight i e).cpu.start = e.cpu.start := by
  unfold takeNight; (repeat' split) <;> simp -implicitDefEqProofs [*]

theorem postCall_merged_frame {p : Post} {n : Nat} {e e2 : Ev} (h : e.postCall p = .merged n e2) :
    e2.toEnv = e.toEnv ∧ e2.msu = e.msu ∧ e2.cht = e.cht ∧ e2.pnc = e.pnc ∧ e2.shc = e.shc ∧ e2.fzu = e.fzu ∧
    e2.blx.present = e.blx.present ∧ e2.anp = e.anp ∧ e2.stamps = e.stamps ∧ e2.cpu = e.cpu := by
  unfold postCall at h; (repeat' split at h) <;> simp at h; rename_i hm; obtain ⟨_, h⟩ := h; subst h; simp -implicitDefEqProofs [Blx.merge_present hm]

theorem postCall_admitted_frame {p : Post} {n : Nat} {e e2 : Ev} (h : e.postCall p = .admitted n e2) :
    e2.toEnv = e.toEnv ∧ e2.msu = e.msu ∧ e2.cht = e.cht ∧ e2.pnc = e.pnc ∧ e2.shc = e.shc ∧ e2.fzu = e.fzu ∧
    e2.blx.present = e.blx.present ∧ e2.anp = e.anp ∧ e2.stamps = e.stamps ∧ e2.cpu = e.cpu := by
  unfold postCall at h; (repeat' split at h) <;> simp at h; obtain ⟨_, h⟩ := h; subst h; simp -implicitDefEqProofs

theorem postAnnouncement_admitted_frame {k : Fin 16} {c : AnnClass} {sp : BitVec 8} {o : Origin} {hr : Bool} {n : Nat} {e e2 : Ev} (h : e.postAnnouncement k c sp o hr = .admitted n e2) :
    e2.toEnv = e.toEnv ∧ e2.msu = e.msu ∧ e2.cht = e.cht ∧ e2.pnc = e.pnc ∧ e2.shc = e.shc ∧ e2.fzu = e.fzu ∧
    e2.blx = e.blx ∧ e2.anp.scripts = e.anp.scripts ∧ e2.stamps = e.stamps ∧ e2.cpu = e.cpu := by
  simp only [postAnnouncement] at h
  split at h
  · simp at h
  · simp only [PostResult.admitted.injEq] at h; obtain ⟨_, h⟩ := h; subst h; simp -implicitDefEqProofs

theorem postAnnouncement_merged {k : Fin 16} {c : AnnClass} {sp : BitVec 8} {o : Origin} {hr : Bool} {n : Nat} {e e2 : Ev} :
    e.postAnnouncement k c sp o hr ≠ .merged n e2 := by
  intro h; simp only [postAnnouncement] at h; (repeat' split at h) <;> simp at h

@[simp] theorem takeWarning_call_frame (i : Nat) (due : Int) (p : Post) (e : Ev) :
    (takeWarning i due (postCall p) e).toEnv = e.toEnv ∧ (takeWarning i due (postCall p) e).msu = e.msu ∧
    (takeWarning i due (postCall p) e).cht = e.cht ∧ (takeWarning i due (postCall p) e).pnc = e.pnc ∧
    (takeWarning i due (postCall p) e).shc = e.shc ∧ (takeWarning i due (postCall p) e).fzu = e.fzu ∧
    (takeWarning i due (postCall p) e).blx.present = e.blx.present ∧ (takeWarning i due (postCall p) e).anp = e.anp ∧
    (takeWarning i due (postCall p) e).stamps = e.stamps ∧
    (takeWarning i due (postCall p) e).cpu.programme = e.cpu.programme ∧
    (takeWarning i due (postCall p) e).cpu.start = e.cpu.start ∧
    (takeWarning i due (postCall p) e).cpu.run.isSome = e.cpu.run.isSome := by
  unfold takeWarning; (repeat' split) <;> first | (simp -implicitDefEqProofs; done) | (rename_i h; first | simp -implicitDefEqProofs [postCall_admitted_frame h] | simp -implicitDefEqProofs [postCall_merged_frame h])

@[simp] theorem takeWarning_announce_frame (i : Nat) (due : Int) (k : Fin 16) (c : AnnClass) (sp : BitVec 8) (o : Origin) (hr : Bool) (e : Ev) :
    (takeWarning i due (postAnnouncement k c sp o hr) e).toEnv = e.toEnv ∧
    (takeWarning i due (postAnnouncement k c sp o hr) e).msu = e.msu ∧
    (takeWarning i due (postAnnouncement k c sp o hr) e).cht = e.cht ∧
    (takeWarning i due (postAnnouncement k c sp o hr) e).pnc = e.pnc ∧
    (takeWarning i due (postAnnouncement k c sp o hr) e).shc = e.shc ∧
    (takeWarning i due (postAnnouncement k c sp o hr) e).fzu = e.fzu ∧
    (takeWarning i due (postAnnouncement k c sp o hr) e).blx = e.blx ∧
    (takeWarning i due (postAnnouncement k c sp o hr) e).anp.scripts = e.anp.scripts ∧
    (takeWarning i due (postAnnouncement k c sp o hr) e).stamps = e.stamps ∧
    (takeWarning i due (postAnnouncement k c sp o hr) e).cpu.programme = e.cpu.programme ∧
    (takeWarning i due (postAnnouncement k c sp o hr) e).cpu.start = e.cpu.start ∧
    (takeWarning i due (postAnnouncement k c sp o hr) e).cpu.run.isSome = e.cpu.run.isSome := by
  unfold takeWarning; (repeat' split) <;> first | (simp -implicitDefEqProofs; done) | (rename_i h; first | exact absurd h postAnnouncement_merged | simp -implicitDefEqProofs [postAnnouncement_admitted_frame h])

@[simp] theorem takeStep_frame (i : Nat) (due : Int) (a : Action) (e : Ev) :
    (takeStep i due a e).toEnv = e.toEnv ∧ (takeStep i due a e).msu.source = e.msu.source ∧
    (takeStep i due a e).msu.batteryLow = e.msu.batteryLow ∧ (takeStep i due a e).msu.wake = e.msu.wake ∧
    (takeStep i due a e).msu.key = e.msu.key ∧ (takeStep i due a e).msu.bellPermit = e.msu.bellPermit ∧
    (takeStep i due a e).msu.announcePermit = e.msu.announcePermit ∧
    (takeStep i due a e).msu.grillePermit = e.msu.grillePermit ∧ (takeStep i due a e).cht = e.cht ∧
    (takeStep i due a e).fzu = e.fzu ∧ (takeStep i due a e).blx.present = e.blx.present ∧
    (takeStep i due a e).anp.scripts = e.anp.scripts ∧ (takeStep i due a e).stamps = e.stamps ∧
    (takeStep i due a e).cpu.programme = e.cpu.programme ∧ (takeStep i due a e).cpu.start = e.cpu.start := by
  unfold takeStep; (repeat' split) <;> simp -implicitDefEqProofs [*]

@[simp] theorem takeDue_frame (limit : Int) (n : Nat) (e : Ev) :
    (takeDue limit n e).toEnv = e.toEnv ∧ (takeDue limit n e).msu.source = e.msu.source ∧
    (takeDue limit n e).msu.batteryLow = e.msu.batteryLow ∧ (takeDue limit n e).msu.wake = e.msu.wake ∧
    (takeDue limit n e).msu.key = e.msu.key ∧ (takeDue limit n e).msu.bellPermit = e.msu.bellPermit ∧
    (takeDue limit n e).msu.announcePermit = e.msu.announcePermit ∧ (takeDue limit n e).msu.grillePermit = e.msu.grillePermit ∧
    (takeDue limit n e).cht = e.cht ∧ (takeDue limit n e).fzu = e.fzu ∧ (takeDue limit n e).blx.present = e.blx.present ∧
    (takeDue limit n e).anp.scripts = e.anp.scripts ∧ (takeDue limit n e).stamps = e.stamps ∧
    (takeDue limit n e).cpu.programme = e.cpu.programme ∧ (takeDue limit n e).cpu.start = e.cpu.start := by
  induction n generalizing e with
  | zero => simp [takeDue]
  | succ n ih => unfold takeDue; (repeat' split) <;> simp -implicitDefEqProofs [ih]

@[simp] theorem takeDueBy_frame (limit : Int) (e : Ev) :
    (takeDueBy limit e).toEnv = e.toEnv ∧ (takeDueBy limit e).msu.source = e.msu.source ∧
    (takeDueBy limit e).msu.batteryLow = e.msu.batteryLow ∧ (takeDueBy limit e).msu.wake = e.msu.wake ∧
    (takeDueBy limit e).msu.key = e.msu.key ∧ (takeDueBy limit e).msu.bellPermit = e.msu.bellPermit ∧
    (takeDueBy limit e).msu.announcePermit = e.msu.announcePermit ∧ (takeDueBy limit e).msu.grillePermit = e.msu.grillePermit ∧
    (takeDueBy limit e).cht = e.cht ∧ (takeDueBy limit e).fzu = e.fzu ∧ (takeDueBy limit e).blx.present = e.blx.present ∧
    (takeDueBy limit e).anp.scripts = e.anp.scripts ∧ (takeDueBy limit e).stamps = e.stamps ∧
    (takeDueBy limit e).cpu.programme = e.cpu.programme ∧ (takeDueBy limit e).cpu.start = e.cpu.start := by
  simp -implicitDefEqProofs [takeDueBy]

@[simp] theorem takeDueSteps_frame (e : Ev) :
    (takeDueSteps e).toEnv = e.toEnv ∧ (takeDueSteps e).msu.source = e.msu.source ∧
    (takeDueSteps e).msu.batteryLow = e.msu.batteryLow ∧ (takeDueSteps e).msu.wake = e.msu.wake ∧
    (takeDueSteps e).msu.key = e.msu.key ∧ (takeDueSteps e).msu.bellPermit = e.msu.bellPermit ∧
    (takeDueSteps e).msu.announcePermit = e.msu.announcePermit ∧ (takeDueSteps e).msu.grillePermit = e.msu.grillePermit ∧
    (takeDueSteps e).cht = e.cht ∧ (takeDueSteps e).fzu = e.fzu ∧ (takeDueSteps e).blx.present = e.blx.present ∧
    (takeDueSteps e).anp.scripts = e.anp.scripts ∧ (takeDueSteps e).stamps = e.stamps ∧
    (takeDueSteps e).cpu.programme = e.cpu.programme ∧ (takeDueSteps e).cpu.start = e.cpu.start := by
  simp -implicitDefEqProofs [takeDueSteps]

@[simp] theorem retakeDeferred_frame (e : Ev) :
    (retakeDeferred e).toEnv = e.toEnv ∧ (retakeDeferred e).msu.source = e.msu.source ∧
    (retakeDeferred e).msu.batteryLow = e.msu.batteryLow ∧ (retakeDeferred e).msu.wake = e.msu.wake ∧
    (retakeDeferred e).msu.key = e.msu.key ∧ (retakeDeferred e).msu.bellPermit = e.msu.bellPermit ∧
    (retakeDeferred e).msu.announcePermit = e.msu.announcePermit ∧
    (retakeDeferred e).msu.grillePermit = e.msu.grillePermit ∧ (retakeDeferred e).cht = e.cht ∧
    (retakeDeferred e).fzu = e.fzu ∧ (retakeDeferred e).blx.present = e.blx.present ∧
    (retakeDeferred e).anp.scripts = e.anp.scripts ∧ (retakeDeferred e).stamps = e.stamps ∧
    (retakeDeferred e).cpu.programme = e.cpu.programme ∧ (retakeDeferred e).cpu.start = e.cpu.start := by
  unfold retakeDeferred
  split
  · split
    · simp
    · refine ⟨forEach_app (·.toEnv) _ _ _ ?_, forEach_app (·.msu.source) _ _ _ ?_, forEach_app (·.msu.batteryLow) _ _ _ ?_, forEach_app (·.msu.wake) _ _ _ ?_, forEach_app (·.msu.key) _ _ _ ?_, forEach_app (·.msu.bellPermit) _ _ _ ?_, forEach_app (·.msu.announcePermit) _ _ _ ?_, forEach_app (·.msu.grillePermit) _ _ _ ?_, forEach_app (·.cht) _ _ _ ?_, forEach_app (·.fzu) _ _ _ ?_, forEach_app (·.blx.present) _ _ _ ?_, forEach_app (·.anp.scripts) _ _ _ ?_, forEach_app (·.stamps) _ _ _ ?_, forEach_app (·.cpu.programme) _ _ _ ?_, forEach_app (·.cpu.start) _ _ _ ?_⟩ <;> (intro _ _; (repeat' split) <;> simp -implicitDefEqProofs [*])
  · simp

@[simp] theorem checkNight_frame (e : Ev) :
    (checkNight e).toEnv = e.toEnv ∧ (checkNight e).msu.source = e.msu.source ∧
    (checkNight e).msu.batteryLow = e.msu.batteryLow ∧ (checkNight e).msu.wake = e.msu.wake ∧
    (checkNight e).msu.key = e.msu.key ∧ (checkNight e).msu.bellPermit = e.msu.bellPermit ∧
    (checkNight e).msu.announcePermit = e.msu.announcePermit ∧ (checkNight e).msu.grillePermit = e.msu.grillePermit ∧
    (checkNight e).cht = e.cht ∧ (checkNight e).shc = e.shc ∧ (checkNight e).fzu = e.fzu ∧
    (checkNight e).blx.present = e.blx.present ∧ (checkNight e).anp.scripts = e.anp.scripts ∧
    (checkNight e).stamps = e.stamps ∧ (checkNight e).cpu.programme = e.cpu.programme ∧
    (checkNight e).cpu.start = e.cpu.start := by
  unfold checkNight; (repeat' split) <;> simp -implicitDefEqProofs [*]

@[simp] theorem startRun_frame (cause : StartCause) (closing limit : Int) (e : Ev) :
    (startRun cause closing limit e).toEnv = e.toEnv ∧ (startRun cause closing limit e).msu.source = e.msu.source ∧
    (startRun cause closing limit e).msu.batteryLow = e.msu.batteryLow ∧ (startRun cause closing limit e).msu.key = e.msu.key ∧
    (startRun cause closing limit e).msu.bellPermit = e.msu.bellPermit ∧
    (startRun cause closing limit e).msu.announcePermit = e.msu.announcePermit ∧
    (startRun cause closing limit e).msu.grillePermit = e.msu.grillePermit ∧ (startRun cause closing limit e).cht = e.cht ∧
    (startRun cause closing limit e).fzu = e.fzu ∧ (startRun cause closing limit e).blx.present = e.blx.present ∧
    (startRun cause closing limit e).anp.scripts = e.anp.scripts ∧ (startRun cause closing limit e).stamps = e.stamps ∧
    (startRun cause closing limit e).cpu.programme = e.cpu.programme ∧ (startRun cause closing limit e).cpu.start = e.cpu.start := by
  simp only [startRun]; simp -implicitDefEqProofs [*]

@[simp] theorem cutRun_frame (cause : EndCause) (e : Ev) :
    (cutRun cause e).toEnv = e.toEnv ∧ (cutRun cause e).msu = e.msu ∧ (cutRun cause e).cht = e.cht ∧
    (cutRun cause e).pnc = e.pnc ∧ (cutRun cause e).shc = e.shc ∧ (cutRun cause e).fzu = e.fzu ∧
    (cutRun cause e).blx = e.blx ∧ (cutRun cause e).anp = e.anp ∧ (cutRun cause e).stamps = e.stamps ∧
    (cutRun cause e).cpu.programme = e.cpu.programme ∧ (cutRun cause e).cpu.start = e.cpu.start := by
  simp -implicitDefEqProofs [cutRun]

@[simp] theorem renewStart_frame (e : Ev) :
    (renewStart e).toEnv = e.toEnv ∧ (renewStart e).msu = e.msu ∧ (renewStart e).cht = e.cht ∧
    (renewStart e).pnc = e.pnc ∧ (renewStart e).shc = e.shc ∧ (renewStart e).fzu = e.fzu ∧ (renewStart e).blx = e.blx ∧
    (renewStart e).anp = e.anp ∧ (renewStart e).stamps = e.stamps ∧ (renewStart e).cpu.programme = e.cpu.programme ∧
    (renewStart e).cpu.run.isSome = e.cpu.run.isSome := by
  simp -implicitDefEqProofs [renewStart]

@[simp] theorem startReached_frame (x : Int) (e : Ev) :
    (startReached x e).toEnv = e.toEnv ∧ (startReached x e).msu.source = e.msu.source ∧
    (startReached x e).msu.batteryLow = e.msu.batteryLow ∧ (startReached x e).msu.key = e.msu.key ∧
    (startReached x e).msu.bellPermit = e.msu.bellPermit ∧ (startReached x e).msu.announcePermit = e.msu.announcePermit ∧
    (startReached x e).msu.grillePermit = e.msu.grillePermit ∧ (startReached x e).cht = e.cht ∧
    (startReached x e).fzu = e.fzu ∧ (startReached x e).blx.present = e.blx.present ∧
    (startReached x e).anp.scripts = e.anp.scripts ∧ (startReached x e).stamps = e.stamps ∧
    (startReached x e).cpu.programme = e.cpu.programme ∧ (startReached x e).cpu.start = e.cpu.start := by
  unfold startReached; (repeat' split) <;> simp -implicitDefEqProofs [*]

/-- An instant in its turn keeps what its action and the steps before it keep. -/
theorem inTurn_app {α : Type} (f : Ev → α) (lo hi : Int) (x : Option Int) (act : Int → Ev → Ev) (e : Ev)
    (hd : ∀ l e, f (takeDueBy l e) = f e) (ha : ∀ x e, f (act x e) = f e) : f (inTurn lo hi x act e) = f e := by
  unfold inTurn; (repeat' split) <;> simp only [hd, ha]

/-- A TIME-SET's passage keeps what the due steps, the opening time and the start of a run keep. -/
theorem reachInstants_app {α : Type} (f : Ev → α) (lo hi : Int) (e : Ev) (hd : ∀ l e, f (takeDueBy l e) = f e)
    (hl : ∀ e, f (latch openingTime e) = f e) (hs : ∀ x e, f (startReached x e) = f e) :
    f (reachInstants lo hi e) = f e := by
  unfold reachInstants
  dsimp only
  split <;> simp only [inTurn_app f lo hi _ _ _ hd (fun _ => hl), inTurn_app f lo hi _ _ _ hd hs]

@[simp] theorem reachInstants_frame (lo hi : Int) (e : Ev) :
    (reachInstants lo hi e).toEnv = e.toEnv ∧ (reachInstants lo hi e).msu.source = e.msu.source ∧
    (reachInstants lo hi e).msu.batteryLow = e.msu.batteryLow ∧ (reachInstants lo hi e).msu.key = e.msu.key ∧
    (reachInstants lo hi e).msu.bellPermit = e.msu.bellPermit ∧
    (reachInstants lo hi e).msu.announcePermit = e.msu.announcePermit ∧
    (reachInstants lo hi e).msu.grillePermit = e.msu.grillePermit ∧ (reachInstants lo hi e).cht = e.cht ∧
    (reachInstants lo hi e).fzu = e.fzu ∧ (reachInstants lo hi e).blx.present = e.blx.present ∧
    (reachInstants lo hi e).anp.scripts = e.anp.scripts ∧ (reachInstants lo hi e).stamps = e.stamps ∧
    (reachInstants lo hi e).cpu.programme = e.cpu.programme ∧ (reachInstants lo hi e).cpu.start = e.cpu.start := by
  refine ⟨reachInstants_app (·.toEnv) lo hi e ?_ ?_ ?_, reachInstants_app (·.msu.source) lo hi e ?_ ?_ ?_, reachInstants_app (·.msu.batteryLow) lo hi e ?_ ?_ ?_, reachInstants_app (·.msu.key) lo hi e ?_ ?_ ?_, reachInstants_app (·.msu.bellPermit) lo hi e ?_ ?_ ?_, reachInstants_app (·.msu.announcePermit) lo hi e ?_ ?_ ?_, reachInstants_app (·.msu.grillePermit) lo hi e ?_ ?_ ?_, reachInstants_app (·.cht) lo hi e ?_ ?_ ?_, reachInstants_app (·.fzu) lo hi e ?_ ?_ ?_, reachInstants_app (·.blx.present) lo hi e ?_ ?_ ?_, reachInstants_app (·.anp.scripts) lo hi e ?_ ?_ ?_, reachInstants_app (·.stamps) lo hi e ?_ ?_ ?_, reachInstants_app (·.cpu.programme) lo hi e ?_ ?_ ?_, reachInstants_app (·.cpu.start) lo hi e ?_ ?_ ?_⟩ <;> (intros; simp)

@[simp] theorem runInstants_frame (lo hi : Int) (e : Ev) :
    (runInstants lo hi e).toEnv = e.toEnv ∧ (runInstants lo hi e).msu.source = e.msu.source ∧
    (runInstants lo hi e).msu.batteryLow = e.msu.batteryLow ∧ (runInstants lo hi e).msu.key = e.msu.key ∧
    (runInstants lo hi e).msu.bellPermit = e.msu.bellPermit ∧
    (runInstants lo hi e).msu.announcePermit = e.msu.announcePermit ∧
    (runInstants lo hi e).msu.grillePermit = e.msu.grillePermit ∧ (runInstants lo hi e).cht = e.cht ∧
    (runInstants lo hi e).fzu = e.fzu ∧ (runInstants lo hi e).blx.present = e.blx.present ∧
    (runInstants lo hi e).anp.scripts = e.anp.scripts ∧ (runInstants lo hi e).stamps = e.stamps ∧
    (runInstants lo hi e).cpu.programme = e.cpu.programme ∧ (runInstants lo hi e).cpu.start = e.cpu.start := by
  simp -implicitDefEqProofs [runInstants, apply_ite Msu.source, apply_ite Msu.batteryLow, apply_ite Msu.key, apply_ite Msu.bellPermit, apply_ite Msu.announcePermit, apply_ite Msu.grillePermit, apply_ite Blx.present, apply_ite Anp.scripts, apply_ite Cpu.programme, apply_ite Cpu.start]

@[simp] theorem rechoose_frame (e : Ev) :
    (rechoose e).toEnv = e.toEnv ∧ (rechoose e).msu = e.msu ∧ (rechoose e).cht = e.cht ∧ (rechoose e).shc = e.shc ∧
    (rechoose e).fzu = e.fzu ∧ (rechoose e).blx = e.blx ∧ (rechoose e).anp = e.anp ∧ (rechoose e).stamps = e.stamps ∧
    (rechoose e).cpu = e.cpu := by
  simp -implicitDefEqProofs [rechoose]

@[simp] theorem judgeIfSettled_frame (e : Ev) :
    (judgeIfSettled e).toEnv = e.toEnv ∧ (judgeIfSettled e).msu = e.msu ∧
    (judgeIfSettled e).cht.settings = e.cht.settings ∧ (judgeIfSettled e).cht.landings = e.cht.landings ∧
    (judgeIfSettled e).cht.clearList = e.cht.clearList ∧ (judgeIfSettled e).cht.position = e.cht.position ∧
    (judgeIfSettled e).cht.settled = e.cht.settled ∧ (judgeIfSettled e).cht.settleWait = e.cht.settleWait ∧
    (judgeIfSettled e).shc = e.shc ∧ (judgeIfSettled e).fzu = e.fzu ∧ (judgeIfSettled e).blx = e.blx ∧
    (judgeIfSettled e).anp = e.anp ∧ (judgeIfSettled e).cpu.programme = e.cpu.programme ∧
    (judgeIfSettled e).cpu.start = e.cpu.start ∧ (judgeIfSettled e).cpu.run.isSome = e.cpu.run.isSome := by
  simp -implicitDefEqProofs [judgeIfSettled, apply_ite Cht.settings, apply_ite Cht.landings, apply_ite Cht.clearList, apply_ite Cht.position, apply_ite Cht.settled, apply_ite Cht.settleWait, apply_ite Cpu.programme, apply_ite Cpu.start, apply_ite Cpu.run, apply_ite Option.isSome]

@[simp] theorem evaluateFire_frame (e : Ev) :
    (evaluateFire e).toEnv = e.toEnv ∧ (evaluateFire e).msu = e.msu ∧ (evaluateFire e).cht = e.cht ∧
    (evaluateFire e).shc = e.shc ∧ (evaluateFire e).fzu = e.fzu ∧ (evaluateFire e).blx = e.blx ∧
    (evaluateFire e).anp = e.anp ∧ (evaluateFire e).stamps = e.stamps ∧ (evaluateFire e).cpu = e.cpu := by
  simp -implicitDefEqProofs [evaluateFire]

@[simp] theorem evaluateAgain_frame (e : Ev) :
    (evaluateAgain e).toEnv = e.toEnv ∧ (evaluateAgain e).msu = e.msu ∧ (evaluateAgain e).cht = e.cht ∧
    (evaluateAgain e).shc = e.shc ∧ (evaluateAgain e).fzu = e.fzu ∧ (evaluateAgain e).blx = e.blx ∧
    (evaluateAgain e).anp = e.anp ∧ (evaluateAgain e).stamps = e.stamps ∧ (evaluateAgain e).cpu = e.cpu := by
  simp -implicitDefEqProofs [evaluateAgain]

@[simp] theorem react_frame (e : Ev) :
    (react e).toEnv = e.toEnv ∧ (react e).msu.source = e.msu.source ∧ (react e).msu.batteryLow = e.msu.batteryLow ∧
    (react e).msu.wake = e.msu.wake ∧ (react e).msu.key = e.msu.key ∧ (react e).msu.bellPermit = e.msu.bellPermit ∧
    (react e).msu.announcePermit = e.msu.announcePermit ∧ (react e).msu.grillePermit = e.msu.grillePermit ∧
    (react e).cht.settings = e.cht.settings ∧ (react e).cht.landings = e.cht.landings ∧
    (react e).cht.clearList = e.cht.clearList ∧ (react e).cht.position = e.cht.position ∧
    (react e).cht.settled = e.cht.settled ∧ (react e).cht.settleWait = e.cht.settleWait ∧ (react e).fzu = e.fzu ∧
    (react e).blx.present = e.blx.present ∧ (react e).anp.scripts = e.anp.scripts ∧
    (react e).cpu.programme = e.cpu.programme ∧ (react e).cpu.start = e.cpu.start := by
  simp -implicitDefEqProofs [react]

@[simp] theorem reportPn_frame (e : Ev) :
    (reportPn e).toEnv = e.toEnv ∧ (reportPn e).msu = e.msu ∧ (reportPn e).cht = e.cht ∧ (reportPn e).pnc = e.pnc ∧
    (reportPn e).shc = e.shc ∧ (reportPn e).fzu = e.fzu ∧ (reportPn e).blx = e.blx ∧ (reportPn e).anp = e.anp ∧
    (reportPn e).stamps = e.stamps ∧ (reportPn e).cpu = e.cpu := by
  simp only [reportPn]; (repeat' split) <;> simp -implicitDefEqProofs [*]

@[simp] theorem reportMode_frame (e : Ev) :
    (reportMode e).toEnv = e.toEnv ∧ (reportMode e).msu = e.msu ∧ (reportMode e).cht = e.cht ∧
    (reportMode e).pnc = e.pnc ∧ (reportMode e).shc = e.shc ∧ (reportMode e).fzu = e.fzu ∧ (reportMode e).blx = e.blx ∧
    (reportMode e).anp = e.anp ∧ (reportMode e).stamps = e.stamps ∧ (reportMode e).cpu = e.cpu := by
  unfold reportMode; (repeat' split) <;> simp -implicitDefEqProofs [*]

@[simp] theorem conclude_frame (e : Ev) :
    (conclude e).toEnv = e.toEnv ∧ (conclude e).msu.source = e.msu.source ∧
    (conclude e).msu.batteryLow = e.msu.batteryLow ∧ (conclude e).msu.wake = e.msu.wake ∧
    (conclude e).msu.key = e.msu.key ∧ (conclude e).msu.bellPermit = e.msu.bellPermit ∧
    (conclude e).msu.announcePermit = e.msu.announcePermit ∧ (conclude e).msu.grillePermit = e.msu.grillePermit ∧
    (conclude e).cht.settings = e.cht.settings ∧ (conclude e).cht.landings = e.cht.landings ∧
    (conclude e).cht.clearList = e.cht.clearList ∧ (conclude e).cht.position = e.cht.position ∧
    (conclude e).cht.settled = e.cht.settled ∧ (conclude e).cht.settleWait = e.cht.settleWait ∧
    (conclude e).fzu = e.fzu ∧ (conclude e).blx.present = e.blx.present ∧ (conclude e).anp.scripts = e.anp.scripts ∧
    (conclude e).cpu.programme = e.cpu.programme ∧ (conclude e).cpu.start = e.cpu.start := by
  simp -implicitDefEqProofs [conclude]

@[simp] theorem countStep_frame (e : Ev) :
    (countStep e).toEnv = e.toEnv ∧ (countStep e).msu = e.msu ∧ (countStep e).pnc = e.pnc ∧ (countStep e).shc = e.shc ∧
    (countStep e).fzu = e.fzu ∧ (countStep e).blx = e.blx ∧ (countStep e).anp = e.anp ∧ (countStep e).stamps = e.stamps ∧
    (countStep e).cpu = e.cpu ∧ (countStep e).cht.settings = e.cht.settings ∧
    (countStep e).cht.landings = e.cht.landings ∧ (countStep e).cht.clearList = e.cht.clearList := by
  simp -implicitDefEqProofs [countStep]

@[simp] theorem firstMotion_frame (e : Ev) :
    (firstMotion e).toEnv = e.toEnv ∧ (firstMotion e).msu = e.msu ∧ (firstMotion e).cht = e.cht ∧
    (firstMotion e).shc = e.shc ∧ (firstMotion e).fzu = e.fzu ∧ (firstMotion e).blx = e.blx ∧
    (firstMotion e).anp = e.anp ∧ (firstMotion e).stamps = e.stamps ∧ (firstMotion e).cpu = e.cpu := by
  simp only [firstMotion]; (repeat' split) <;> simp -implicitDefEqProofs [*]

@[simp] theorem loopDone_frame (e : Ev) :
    (loopDone e).toEnv = e.toEnv ∧ (loopDone e).msu = e.msu ∧ (loopDone e).cht = e.cht ∧ (loopDone e).shc = e.shc ∧
    (loopDone e).fzu = e.fzu ∧ (loopDone e).blx = e.blx ∧ (loopDone e).anp = e.anp ∧ (loopDone e).stamps = e.stamps ∧
    (loopDone e).cpu = e.cpu := by
  simp only [loopDone]; (repeat' split) <;> simp -implicitDefEqProofs [*]

@[simp] theorem sweepStep_frame (e : Ev) :
    (sweepStep e).toEnv = e.toEnv ∧ (sweepStep e).msu = e.msu ∧ (sweepStep e).cht = e.cht ∧ (sweepStep e).shc = e.shc ∧
    (sweepStep e).fzu = e.fzu ∧ (sweepStep e).blx = e.blx ∧ (sweepStep e).anp = e.anp ∧ (sweepStep e).stamps = e.stamps ∧
    (sweepStep e).cpu = e.cpu := by
  simp only [sweepStep]; (repeat' split) <;> simp -implicitDefEqProofs [*]

@[simp] theorem cutDemand_frame (e : Ev) :
    (cutDemand e).toEnv = e.toEnv ∧ (cutDemand e).msu = e.msu ∧ (cutDemand e).cht = e.cht ∧ (cutDemand e).shc = e.shc ∧
    (cutDemand e).fzu = e.fzu ∧ (cutDemand e).blx = e.blx ∧ (cutDemand e).anp = e.anp ∧ (cutDemand e).stamps = e.stamps ∧
    (cutDemand e).cpu = e.cpu := by
  simp -implicitDefEqProofs [cutDemand]

@[simp] theorem stepPn_frame (e : Ev) :
    (stepPn e).toEnv = e.toEnv ∧ (stepPn e).msu = e.msu ∧ (stepPn e).cht = e.cht ∧ (stepPn e).shc = e.shc ∧
    (stepPn e).fzu = e.fzu ∧ (stepPn e).blx = e.blx ∧ (stepPn e).anp = e.anp ∧ (stepPn e).stamps = e.stamps ∧
    (stepPn e).cpu = e.cpu := by
  unfold stepPn; (repeat' split) <;> simp -implicitDefEqProofs [*]

@[simp] theorem encoderStep_frame (e : Ev) :
    (encoderStep e).toEnv = e.toEnv ∧ (encoderStep e).msu = e.msu ∧ (encoderStep e).cht.settings = e.cht.settings ∧
    (encoderStep e).cht.landings = e.cht.landings ∧ (encoderStep e).cht.clearList = e.cht.clearList ∧
    (encoderStep e).shc = e.shc ∧ (encoderStep e).fzu = e.fzu ∧ (encoderStep e).blx = e.blx ∧
    (encoderStep e).anp = e.anp ∧ (encoderStep e).stamps = e.stamps ∧ (encoderStep e).cpu = e.cpu := by
  simp -implicitDefEqProofs [encoderStep]

@[simp] theorem settleOut_frame (e : Ev) :
    (settleOut e).toEnv = e.toEnv ∧ (settleOut e).msu = e.msu ∧ (settleOut e).pnc = e.pnc ∧ (settleOut e).shc = e.shc ∧
    (settleOut e).fzu = e.fzu ∧ (settleOut e).blx = e.blx ∧ (settleOut e).anp = e.anp ∧ (settleOut e).stamps = e.stamps ∧
    (settleOut e).cpu = e.cpu ∧ (settleOut e).cht.settings = e.cht.settings ∧
    (settleOut e).cht.landings = e.cht.landings ∧ (settleOut e).cht.clearList = e.cht.clearList ∧
    (settleOut e).cht.position = e.cht.position := by
  simp -implicitDefEqProofs [settleOut, apply_ite Cht.settings, apply_ite Cht.landings, apply_ite Cht.clearList, apply_ite Cht.position]

@[simp] theorem judgeSurvey_frame (s : Survey) (e : Ev) :
    (judgeSurvey s e).toEnv = e.toEnv ∧ (judgeSurvey s e).msu = e.msu ∧ (judgeSurvey s e).cht.settings = e.cht.settings ∧
    (judgeSurvey s e).cht.position = e.cht.position ∧ (judgeSurvey s e).cht.settled = e.cht.settled ∧
    (judgeSurvey s e).cht.settleWait = e.cht.settleWait ∧ (judgeSurvey s e).shc = e.shc ∧ (judgeSurvey s e).fzu = e.fzu ∧
    (judgeSurvey s e).blx = e.blx ∧ (judgeSurvey s e).anp = e.anp ∧ (judgeSurvey s e).stamps = e.stamps ∧
    (judgeSurvey s e).cpu = e.cpu := by
  simp only [judgeSurvey]; (repeat' split) <;> simp -implicitDefEqProofs [*]

@[simp] theorem indexSurvey_frame (e : Ev) :
    (indexSurvey e).toEnv = e.toEnv ∧ (indexSurvey e).msu = e.msu ∧ (indexSurvey e).cht.settings = e.cht.settings ∧
    (indexSurvey e).cht.position = e.cht.position ∧ (indexSurvey e).cht.settled = e.cht.settled ∧
    (indexSurvey e).cht.settleWait = e.cht.settleWait ∧ (indexSurvey e).shc = e.shc ∧ (indexSurvey e).fzu = e.fzu ∧
    (indexSurvey e).blx = e.blx ∧ (indexSurvey e).anp = e.anp ∧ (indexSurvey e).stamps = e.stamps ∧
    (indexSurvey e).cpu = e.cpu := by
  unfold indexSurvey; (repeat' split) <;> simp -implicitDefEqProofs [*]

@[simp] theorem indexEdge_frame (e : Ev) :
    (indexEdge e).toEnv = e.toEnv ∧ (indexEdge e).msu = e.msu ∧ (indexEdge e).cht.settings = e.cht.settings ∧
    (indexEdge e).cht.settled = e.cht.settled ∧ (indexEdge e).cht.settleWait = e.cht.settleWait ∧
    (indexEdge e).shc = e.shc ∧ (indexEdge e).fzu = e.fzu ∧ (indexEdge e).blx = e.blx ∧ (indexEdge e).anp = e.anp ∧
    (indexEdge e).cpu.programme = e.cpu.programme ∧ (indexEdge e).cpu.start = e.cpu.start ∧
    (indexEdge e).cpu.run.isSome = e.cpu.run.isSome := by
  simp only [indexEdge]; (repeat' split) <;> simp -implicitDefEqProofs [*, apply_ite Cht.settings, apply_ite Cht.settled, apply_ite Cht.settleWait, apply_ite Cpu.programme, apply_ite Cpu.start, apply_ite Cpu.run, apply_ite Option.isSome]

@[simp] theorem checkSill_frame (l : Fin 8) (side : Side) (p : Nat) (e : Ev) :
    (checkSill l side p e).toEnv = e.toEnv ∧ (checkSill l side p e).msu = e.msu ∧
    (checkSill l side p e).cht.settings = e.cht.settings ∧ (checkSill l side p e).cht.landings = e.cht.landings ∧
    (checkSill l side p e).cht.clearList = e.cht.clearList ∧ (checkSill l side p e).cht.position = e.cht.position ∧
    (checkSill l side p e).cht.settled = e.cht.settled ∧ (checkSill l side p e).cht.settleWait = e.cht.settleWait ∧
    (checkSill l side p e).shc = e.shc ∧ (checkSill l side p e).fzu = e.fzu ∧ (checkSill l side p e).blx = e.blx ∧
    (checkSill l side p e).anp = e.anp ∧ (checkSill l side p e).cpu.programme = e.cpu.programme ∧
    (checkSill l side p e).cpu.start = e.cpu.start ∧ (checkSill l side p e).cpu.run.isSome = e.cpu.run.isSome := by
  simp only [checkSill]; (repeat' split) <;> simp -implicitDefEqProofs [*]

@[simp] theorem sillEdge_frame (l : Fin 8) (side : Side) (e : Ev) :
    (sillEdge l side e).toEnv = e.toEnv ∧ (sillEdge l side e).msu = e.msu ∧
    (sillEdge l side e).cht.settings = e.cht.settings ∧ (sillEdge l side e).cht.landings = e.cht.landings ∧
    (sillEdge l side e).cht.clearList = e.cht.clearList ∧ (sillEdge l side e).cht.position = e.cht.position ∧
    (sillEdge l side e).cht.settled = e.cht.settled ∧ (sillEdge l side e).cht.settleWait = e.cht.settleWait ∧
    (sillEdge l side e).shc = e.shc ∧ (sillEdge l side e).fzu = e.fzu ∧ (sillEdge l side e).blx = e.blx ∧
    (sillEdge l side e).anp = e.anp ∧ (sillEdge l side e).cpu.programme = e.cpu.programme ∧
    (sillEdge l side e).cpu.start = e.cpu.start ∧ (sillEdge l side e).cpu.run.isSome = e.cpu.run.isSome := by
  unfold sillEdge; (repeat' split) <;> simp -implicitDefEqProofs [*]

@[simp] theorem startOut_frame (e : Ev) :
    (startOut e).toEnv = e.toEnv ∧ (startOut e).msu = e.msu ∧ (startOut e).cht = e.cht ∧ (startOut e).shc = e.shc ∧
    (startOut e).fzu = e.fzu ∧ (startOut e).blx = e.blx ∧ (startOut e).anp = e.anp ∧ (startOut e).stamps = e.stamps ∧
    (startOut e).cpu.programme = e.cpu.programme ∧ (startOut e).cpu.start = e.cpu.start ∧
    (startOut e).cpu.run.isSome = e.cpu.run.isSome := by
  simp only [startOut]; (repeat' split) <;> simp -implicitDefEqProofs [*, apply_ite Cpu.programme, apply_ite Cpu.start, apply_ite Cpu.run, apply_ite Option.isSome]

@[simp] theorem creepOut_frame (e : Ev) :
    (creepOut e).toEnv = e.toEnv ∧ (creepOut e).msu = e.msu ∧ (creepOut e).cht.settings = e.cht.settings ∧
    (creepOut e).cht.landings = e.cht.landings ∧ (creepOut e).cht.clearList = e.cht.clearList ∧
    (creepOut e).cht.position = e.cht.position ∧ (creepOut e).cht.settled = e.cht.settled ∧
    (creepOut e).cht.settleWait = e.cht.settleWait ∧ (creepOut e).shc = e.shc ∧ (creepOut e).fzu = e.fzu ∧
    (creepOut e).blx = e.blx ∧ (creepOut e).anp = e.anp ∧ (creepOut e).cpu.programme = e.cpu.programme ∧
    (creepOut e).cpu.start = e.cpu.start ∧ (creepOut e).cpu.run.isSome = e.cpu.run.isSome := by
  simp -implicitDefEqProofs [creepOut, apply_ite Cht.settings, apply_ite Cht.landings, apply_ite Cht.clearList, apply_ite Cht.position, apply_ite Cht.settled, apply_ite Cht.settleWait, apply_ite Cpu.programme, apply_ite Cpu.start, apply_ite Cpu.run, apply_ite Option.isSome]

@[simp] theorem surveyOut_frame (e : Ev) :
    (surveyOut e).toEnv = e.toEnv ∧ (surveyOut e).msu = e.msu ∧ (surveyOut e).cht.settings = e.cht.settings ∧
    (surveyOut e).cht.landings = e.cht.landings ∧ (surveyOut e).cht.clearList = e.cht.clearList ∧
    (surveyOut e).cht.position = e.cht.position ∧ (surveyOut e).cht.settled = e.cht.settled ∧
    (surveyOut e).cht.settleWait = e.cht.settleWait ∧ (surveyOut e).shc = e.shc ∧ (surveyOut e).fzu = e.fzu ∧
    (surveyOut e).blx = e.blx ∧ (surveyOut e).anp = e.anp ∧ (surveyOut e).cpu.programme = e.cpu.programme ∧
    (surveyOut e).cpu.start = e.cpu.start ∧ (surveyOut e).cpu.run.isSome = e.cpu.run.isSome := by
  unfold surveyOut; (repeat' split) <;> simp -implicitDefEqProofs [*]

@[simp] theorem keyTurned_frame (active : Bool) (e : Ev) :
    (keyTurned active e).toEnv = e.toEnv ∧ (keyTurned active e).msu.mode = e.msu.mode ∧
    (keyTurned active e).msu.source = e.msu.source ∧ (keyTurned active e).msu.batteryLow = e.msu.batteryLow ∧
    (keyTurned active e).msu.wake = e.msu.wake ∧ (keyTurned active e).msu.bellPermit = e.msu.bellPermit ∧
    (keyTurned active e).msu.announcePermit = e.msu.announcePermit ∧
    (keyTurned active e).msu.grillePermit = e.msu.grillePermit ∧ (keyTurned active e).cht.settings = e.cht.settings ∧
    (keyTurned active e).cht.landings = e.cht.landings ∧ (keyTurned active e).cht.clearList = e.cht.clearList ∧
    (keyTurned active e).cht.position = e.cht.position ∧ (keyTurned active e).cht.settled = e.cht.settled ∧
    (keyTurned active e).cht.settleWait = e.cht.settleWait ∧ (keyTurned active e).shc = e.shc ∧
    (keyTurned active e).fzu = e.fzu ∧ (keyTurned active e).blx = e.blx ∧ (keyTurned active e).anp = e.anp ∧
    (keyTurned active e).stamps = e.stamps ∧ (keyTurned active e).cpu = e.cpu := by
  simp only [keyTurned]; (repeat' split) <;> simp -implicitDefEqProofs [*]

@[simp] theorem normalStop_frame (e : Ev) :
    (normalStop e).toEnv = e.toEnv ∧ (normalStop e).msu = e.msu ∧ (normalStop e).cht = e.cht ∧
    (normalStop e).shc = e.shc ∧ (normalStop e).fzu = e.fzu ∧ (normalStop e).blx = e.blx ∧ (normalStop e).anp = e.anp ∧
    (normalStop e).stamps = e.stamps ∧ (normalStop e).cpu = e.cpu := by
  simp only [normalStop]; (repeat' split) <;> simp -implicitDefEqProofs [*]

@[simp] theorem beginSurvey_frame (e : Ev) :
    (beginSurvey e).toEnv = e.toEnv ∧ (beginSurvey e).msu = e.msu ∧ (beginSurvey e).cht.settings = e.cht.settings ∧
    (beginSurvey e).cht.landings = e.cht.landings ∧ (beginSurvey e).cht.clearList = e.cht.clearList ∧
    (beginSurvey e).cht.position = e.cht.position ∧ (beginSurvey e).cht.settled = e.cht.settled ∧
    (beginSurvey e).cht.settleWait = e.cht.settleWait ∧ (beginSurvey e).shc = e.shc ∧ (beginSurvey e).fzu = e.fzu ∧
    (beginSurvey e).blx = e.blx ∧ (beginSurvey e).anp = e.anp ∧ (beginSurvey e).stamps = e.stamps ∧
    (beginSurvey e).cpu = e.cpu := by
  simp -implicitDefEqProofs [beginSurvey]

@[simp] theorem loadZoneLines_frame (z : Fin 6) (l : BitVec 10) (e : Ev) :
    (loadZoneLines z l e).toEnv = e.toEnv ∧ (loadZoneLines z l e).msu = e.msu ∧ (loadZoneLines z l e).cht = e.cht ∧
    (loadZoneLines z l e).pnc = e.pnc ∧ (loadZoneLines z l e).shc = e.shc ∧ (loadZoneLines z l e).fzu.fire = e.fzu.fire ∧
    (loadZoneLines z l e).fzu.deadline = e.fzu.deadline ∧ (loadZoneLines z l e).fzu.hold = e.fzu.hold ∧
    (loadZoneLines z l e).blx.present = e.blx.present ∧ (loadZoneLines z l e).anp = e.anp ∧
    (loadZoneLines z l e).stamps = e.stamps ∧ (loadZoneLines z l e).cpu = e.cpu := by
  simp -implicitDefEqProofs [loadZoneLines, apply_ite Fzu.fire, apply_ite Fzu.deadline, apply_ite Fzu.hold, apply_ite Blx.present]

@[simp] theorem reachByOrder_frame (old : Tmb) (c : CalTime) (e : Ev) :
    (reachByOrder old c e).toEnv = e.toEnv ∧ (reachByOrder old c e).msu.source = e.msu.source ∧
    (reachByOrder old c e).msu.batteryLow = e.msu.batteryLow ∧ (reachByOrder old c e).msu.key = e.msu.key ∧
    (reachByOrder old c e).msu.bellPermit = e.msu.bellPermit ∧
    (reachByOrder old c e).msu.announcePermit = e.msu.announcePermit ∧
    (reachByOrder old c e).msu.grillePermit = e.msu.grillePermit ∧ (reachByOrder old c e).cht = e.cht ∧
    (reachByOrder old c e).fzu = e.fzu ∧ (reachByOrder old c e).blx.present = e.blx.present ∧
    (reachByOrder old c e).anp.scripts = e.anp.scripts ∧ (reachByOrder old c e).stamps = e.stamps ∧
    (reachByOrder old c e).cpu.programme = e.cpu.programme ∧ (reachByOrder old c e).cpu.start = e.cpu.start := by
  simp -implicitDefEqProofs [reachByOrder, apply_ite Msu.source, apply_ite Msu.batteryLow, apply_ite Msu.key, apply_ite Msu.bellPermit, apply_ite Msu.announcePermit, apply_ite Msu.grillePermit, apply_ite Blx.present, apply_ite Anp.scripts, apply_ite Cpu.programme, apply_ite Cpu.start]

@[simp] theorem afterTimeSet_frame (old : Tmb) (c : CalTime) (e : Ev) :
    (afterTimeSet old c e).toEnv = e.toEnv ∧ (afterTimeSet old c e).msu.source = e.msu.source ∧
    (afterTimeSet old c e).msu.batteryLow = e.msu.batteryLow ∧ (afterTimeSet old c e).msu.key = e.msu.key ∧
    (afterTimeSet old c e).msu.bellPermit = e.msu.bellPermit ∧
    (afterTimeSet old c e).msu.announcePermit = e.msu.announcePermit ∧
    (afterTimeSet old c e).msu.grillePermit = e.msu.grillePermit ∧ (afterTimeSet old c e).cht = e.cht ∧
    (afterTimeSet old c e).fzu = e.fzu ∧ (afterTimeSet old c e).blx.present = e.blx.present ∧
    (afterTimeSet old c e).anp.scripts = e.anp.scripts ∧ (afterTimeSet old c e).stamps = e.stamps ∧
    (afterTimeSet old c e).cpu.programme = e.cpu.programme := by
  simp only [afterTimeSet]; simp -implicitDefEqProofs [*, apply_ite Msu.source, apply_ite Msu.batteryLow, apply_ite Msu.key, apply_ite Msu.bellPermit, apply_ite Msu.announcePermit, apply_ite Msu.grillePermit, apply_ite Blx.present, apply_ite Anp.scripts, apply_ite Cpu.programme]

@[simp] theorem staffKeyTurned_frame (e : Ev) :
    (staffKeyTurned e).toEnv = e.toEnv ∧ (staffKeyTurned e).msu.source = e.msu.source ∧
    (staffKeyTurned e).msu.batteryLow = e.msu.batteryLow ∧ (staffKeyTurned e).msu.key = e.msu.key ∧
    (staffKeyTurned e).msu.bellPermit = e.msu.bellPermit ∧ (staffKeyTurned e).msu.announcePermit = e.msu.announcePermit ∧
    (staffKeyTurned e).msu.grillePermit = e.msu.grillePermit ∧ (staffKeyTurned e).cht = e.cht ∧
    (staffKeyTurned e).pnc = e.pnc ∧ (staffKeyTurned e).shc = e.shc ∧ (staffKeyTurned e).fzu = e.fzu ∧
    (staffKeyTurned e).blx.present = e.blx.present ∧ (staffKeyTurned e).anp = e.anp ∧ (staffKeyTurned e).cpu = e.cpu := by
  simp -implicitDefEqProofs [staffKeyTurned]

@[simp] theorem landingCause_frame (l : Fin 8) (c : Cause) (e : Ev) :
    (landingCause l c e).toEnv = e.toEnv ∧ (landingCause l c e).msu = e.msu ∧
    (landingCause l c e).cht.settings = e.cht.settings ∧ (landingCause l c e).cht.landings = e.cht.landings ∧
    (landingCause l c e).cht.clearList = e.cht.clearList ∧ (landingCause l c e).cht.position = e.cht.position ∧
    (landingCause l c e).cht.settled = e.cht.settled ∧ (landingCause l c e).cht.settleWait = e.cht.settleWait ∧
    (landingCause l c e).shc = e.shc ∧ (landingCause l c e).fzu = e.fzu ∧ (landingCause l c e).blx = e.blx ∧
    (landingCause l c e).anp = e.anp ∧ (landingCause l c e).cpu.programme = e.cpu.programme ∧
    (landingCause l c e).cpu.start = e.cpu.start ∧ (landingCause l c e).cpu.run.isSome = e.cpu.run.isSome := by
  simp -implicitDefEqProofs [landingCause, apply_ite Cht.settings, apply_ite Cht.landings, apply_ite Cht.clearList, apply_ite Cht.position, apply_ite Cht.settled, apply_ite Cht.settleWait, apply_ite Cpu.programme, apply_ite Cpu.start, apply_ite Cpu.run, apply_ite Option.isSome]

@[simp] theorem driveReady_frame (e : Ev) :
    (driveReady e).toEnv = e.toEnv ∧ (driveReady e).msu = e.msu ∧ (driveReady e).cht = e.cht ∧
    (driveReady e).pnc = e.pnc ∧ (driveReady e).shc = e.shc ∧ (driveReady e).fzu = e.fzu ∧ (driveReady e).blx = e.blx ∧
    (driveReady e).anp = e.anp ∧ (driveReady e).stamps = e.stamps ∧ (driveReady e).cpu = e.cpu := by
  simp -implicitDefEqProofs [driveReady]

@[simp] theorem zoneSounds_frame (z : Fin 6) (e : Ev) :
    (zoneSounds z e).toEnv = e.toEnv ∧ (zoneSounds z e).msu = e.msu ∧ (zoneSounds z e).cht.settings = e.cht.settings ∧
    (zoneSounds z e).cht.landings = e.cht.landings ∧ (zoneSounds z e).cht.clearList = e.cht.clearList ∧
    (zoneSounds z e).cht.position = e.cht.position ∧ (zoneSounds z e).cht.settled = e.cht.settled ∧
    (zoneSounds z e).cht.settleWait = e.cht.settleWait ∧ (zoneSounds z e).blx.present = e.blx.present ∧
    (zoneSounds z e).anp.scripts = e.anp.scripts ∧ (zoneSounds z e).cpu.programme = e.cpu.programme ∧
    (zoneSounds z e).cpu.start = e.cpu.start ∧ (zoneSounds z e).cpu.run.isSome = e.cpu.run.isSome := by
  simp -implicitDefEqProofs [zoneSounds]

@[simp] theorem zoneSilent_frame (z : Fin 6) (e : Ev) :
    (zoneSilent z e).toEnv = e.toEnv ∧ (zoneSilent z e).msu = e.msu ∧ (zoneSilent z e).cht.settings = e.cht.settings ∧
    (zoneSilent z e).cht.landings = e.cht.landings ∧ (zoneSilent z e).cht.clearList = e.cht.clearList ∧
    (zoneSilent z e).cht.position = e.cht.position ∧ (zoneSilent z e).cht.settled = e.cht.settled ∧
    (zoneSilent z e).cht.settleWait = e.cht.settleWait ∧ (zoneSilent z e).blx.present = e.blx.present ∧
    (zoneSilent z e).anp.scripts = e.anp.scripts ∧ (zoneSilent z e).cpu.programme = e.cpu.programme ∧
    (zoneSilent z e).cpu.start = e.cpu.start ∧ (zoneSilent z e).cpu.run.isSome = e.cpu.run.isSome := by
  simp -implicitDefEqProofs [zoneSilent]

/-! ### Without a run -/

theorem stepsWhere_idle {c : Cpu} (p : Action → StepOutcome → Bool) (h : c.run = none) : c.stepsWhere p = [] := by
  unfold Cpu.stepsWhere; rw [h]

theorem recordStep_idle {i : Nat} {r : StepRecord} {e : Ev} (h : e.cpu.run = none) : recordStep i r e = e := by
  unfold recordStep; rw [h]

theorem handBackSweep_idle {r : Reason} {e : Ev} (h : e.cpu.run = none) : (handBackSweep r e).cpu = e.cpu := by
  unfold handBackSweep; split
  · simp only; rw [stepsWhere_idle _ (by exact h)]; rfl
  · rfl

theorem failSweep_idle {r : Reason} {e : Ev} (h : e.cpu.run = none) : (failSweep r e).cpu = e.cpu :=
  handBackSweep_idle (e := e.ended .pnSweep .ended r []) h

theorem failAll_idle {r : Reason} {e : Ev} (h : e.cpu.run = none) : (failAll r e).cpu = e.cpu :=
  failSweep_idle (e := (e.ended .pnStart .ended r []).ended .pnStop .ended r []) h

theorem enterEstop_idle {c : Cause} {e : Ev} (h : e.cpu.run = none) : (enterEstop c e).cpu = e.cpu := by
  have h' : (e.abandonSurvey .estop).cpu.run = none := by simpa using h
  simpa [enterEstop] using failAll_idle (r := .fault) h'

theorem estop_idle {c : Cause} {e : Ev} (h : e.cpu.run = none) : (estop c e).cpu = e.cpu := by
  unfold estop; (repeat' split) <;> simp [enterEstop_idle h]

theorem haltAfter_idle {e : Ev} (h : e.cpu.run = none) : (haltAfter e).cpu = e.cpu := by
  simp [haltAfter, failSweep_idle h]

theorem settledBare_idle {e : Ev} (h : e.cpu.run = none) : (settledBare e).cpu = e.cpu := by
  unfold settledBare; split <;> simp [haltAfter_idle h]

theorem lockAfterSweep_idle {e : Ev} (h : e.cpu.run = none) : (lockAfterSweep e).cpu = e.cpu :=
  handBackSweep_idle (e := (e.restIn .nightLock).ended .pnSweep .done .none []) h

theorem judge_idle {e : Ev} (h : e.cpu.run = none) : (judge e).cpu = e.cpu := by
  unfold judge settledHit settledMiss missAgain
  (repeat' split) <;> simp [settledBare_idle h, lockAfterSweep_idle h, estop_idle h]

theorem judgeIfSettled_idle {e : Ev} (h : e.cpu.run = none) : e.judgeIfSettled.cpu = e.cpu := by
  simp [judgeIfSettled, judge_idle h]

theorem retakeDeferred_idle {e : Ev} (h : e.cpu.run = none) : e.retakeDeferred = e := by
  unfold retakeDeferred; rw [h]

theorem checkNight_idle {e : Ev} (h : e.cpu.run = none) : e.checkNight = e := by
  unfold checkNight; rw [stepsWhere_idle _ h]

/-- Without a run the end of an event is the paternoster's and the stations' own, the queue's head and assignment. -/
theorem react_idle {e : Ev} (h : e.cpu.run = none) :
    e.react = (e.rechoose.judgeIfSettled.evaluateFire.settleStations.evaluateAgain.takeHead).setBlx Blx.assign := by
  have h1 : e.rechoose.judgeIfSettled.evaluateFire.settleStations.evaluateAgain.cpu = e.cpu := by
    simp [judgeIfSettled_idle (e := e.rechoose) (by simpa using h)]
  simp only [react]
  rw [retakeDeferred_idle (by rw [h1]; exact h), checkNight_idle (by rw [h1]; exact h)]

theorem conclude_idle {e : Ev} (h : e.cpu.run = none) :
    e.conclude.msu = e.msu ∧ e.conclude.cpu = e.cpu ∧
      e.conclude.pnc = e.rechoose.judgeIfSettled.evaluateFire.settleStations.evaluateAgain.pnc ∧
      e.conclude.shc = e.rechoose.judgeIfSettled.evaluateFire.settleStations.shc := by
  simp [conclude, react_idle h, judgeIfSettled_idle (e := e.rechoose) (by simpa using h)]

end Ev

end Sys2Proof.Machine
end

