-- ==== Sys2Proof/Laws/Invariant.lean ====
section
/-! SUPPORT. What every step keeps: a property of the blocks' store is kept by a step when the claims of the field events, the
orders, the restarts, the calendar's instants and the end of an event keep it. -/
namespace Sys2Proof.Machine

/-- What an order's answer leaves has the property. -/
def OrderResult.Keeps (P : Store → Prop) : OrderResult → Prop
  | .quiet _ st _ _ => P st
  | .acted _ _ _ _ e => P e.toStore
  | _ => True

theorem OrderResult.Keeps.after {P : Store → Prop} {checks : List (Bool × Reason)} {r : OrderResult}
    (h : firstFailure checks = none → r.Keeps P) : (OrderResult.after checks r).Keeps P := by
  unfold OrderResult.after
  split
  · trivial
  · exact h (by assumption)

theorem Ev.reported_toStore (e : Ev) : e.reported.toStore = e.toStore := rfl

/-- A property of the store that everything a command is made of keeps. -/
structure Store.Kept (P : Store → Prop) : Prop where
  driven : ∀ (st : Store) (phs : Phs), P st → P (st.driven phs)
  conclude : ∀ e : Ev, P e.toStore → P e.conclude.toStore
  event : ∀ (f : Ev → Ev), FieldEvent f → ∀ e : Ev, P e.toStore → P (f e).toStore
  order : ∀ (code : Nat) (o : RxOrder) (e : Ev), P e.toStore → (handle code o e).Keeps P
  warm : ∀ e : Ev, P e.toStore → P e.warm.toStore
  cold : ∀ (v : Env) (l : Lines), P (Ev.begin v (Store.cold l)).cold.toStore
  date : ∀ (st : Store) (t : Tmb) (c : Bool), P st → P (st.atDate t c)
  instants : ∀ (lo hi : Int) (e : Ev), P e.toStore → P (e.runInstants lo hi).toStore

namespace Store.Kept

variable {P : Store → Prop} (k : Store.Kept P)
include k

theorem finish {s : State} {l : Lnk} {v : Env} {e : Ev} (h : P e.toStore) :
    P (Machine.finish s l v e.conclude).toStore :=
  k.driven _ _ (k.conclude e h)

theorem restart (r : RestartKind) {s : State} (h : P s.toStore) : P (Machine.restart r s).toStore := by
  have hc : P (Ev.begin (Env.cold s.lines) (Store.cold s.lines)).cold.reported.toStore := by
    rw [Ev.reported_toStore]; exact k.cold _ _
  have hw : P (Ev.begin s.toEnv s.toStore).warm.reported.toStore := by
    rw [Ev.reported_toStore]; exact k.warm _ h
  unfold Machine.restart
  dsimp only
  generalize (Ev.begin (Env.cold s.lines) (Store.cold s.lines)).cold.reported = ec at hc ⊢
  generalize (Ev.begin s.toEnv s.toStore).warm.reported = ew at hw ⊢
  have fc := k.finish (s := s) (l := Lnk.restarted s.lines.spd r) (v := Env.cold s.lines) hc
  have fw := k.finish (s := s) (l := Lnk.restarted s.lines.spd r) (v := s.toEnv) hw
  cases r
  · exact fc
  · exact fc
  · exact fw

theorem takeOrder (o : RxOrder) {s : State} (h : P s.toStore) : P (Machine.takeOrder o s).toStore := by
  unfold Machine.takeOrder
  split; · exact h
  split; · exact h
  split
  · unfold takeStatus; split <;> exact h
  · have := k.order o.code.toNat o (Ev.begin s.toEnv s.toStore) h
    revert this
    generalize handle o.code.toNat o (Ev.begin s.toEnv s.toStore) = res
    intro this
    cases res with
    | refused x d => exact h
    | report d => exact h
    | quiet v st ns d => exact k.driven _ _ this
    | acted out op d v e => exact k.finish this
    | restart r => exact k.restart r h

theorem intake (n : Nat) : ∀ {s : State}, P s.toStore → P (Machine.intake n s).toStore := by
  induction n with
  | zero => exact fun h => h
  | succ n ih =>
    intro s h
    unfold Machine.intake
    split
    · exact h
    · split
      · exact ih (k.takeOrder _ h)
      · exact h

theorem arrive (o : RxOrder) {s : State} (h : P s.toStore) : P (Machine.arrive o s).toStore := by
  unfold Machine.arrive
  dsimp only
  split
  · exact k.intake _ h
  · exact h

theorem receiveByte (b : Byte) {s : State} (h : P s.toStore) : P (Machine.receiveByte b s).toStore := by
  unfold Machine.receiveByte
  split
  · exact h
  · exact h
  · split
    · exact k.arrive _ h
    · exact h

theorem receiveAll (bs : List Byte) : ∀ {s : State}, P s.toStore → P (Machine.receiveAll bs s).toStore := by
  unfold Machine.receiveAll
  induction bs with
  | nil => exact fun h => h
  | cons b bs ih => exact fun h => ih (k.receiveByte b h)

theorem tick {s : State} (h : P s.toStore) : P (Machine.tick s).toStore := by
  unfold Machine.tick
  dsimp only
  split
  · exact k.finish (k.instants _ _ (Ev.begin _ _) (k.date _ _ _ h))
  · exact k.date _ _ _ h

theorem effect {s t : State} (e : Effect s t) (h : P s.toStore) : P t.toStore := by
  cases e with
  | none => exact h
  | arrive o => exact k.arrive o h
  | receiveAll bs => exact k.receiveAll bs h
  | dropReception => exact h
  | frameSent => unfold Machine.frameSent; split; exact h; exact k.intake _ h
  | restart r l => exact k.restart r (s := s.atLines l) h
  | event l f hf => exact k.finish (k.event f hf (Ev.begin _ _) h)
  | tick => exact k.tick h
  | trimPeriod => exact h
  | timebase c t ht => exact h
  | lines l => exact h

/-- Every step keeps it. -/
theorem step {s t : State} (h : P s.toStore) (e : Machine.step s = .next t) : P t.toStore :=
  k.effect (step_effect e) h

end Store.Kept

end Sys2Proof.Machine
end

