-- ==== Sys2Proof/Laws/Link.lean ====
section
/-! SUPPORT. What the Link Unit's operations can do (R177-R179): what they add to the outbox, and how its occupancy
moves. -/
namespace Sys2Proof.Machine

/-- The frame is an answer, not a final answer or a notice. -/
def OutFrame.isAnswer : OutFrame → Bool
  | .answer .. => true
  | .final .. => false
  | .notice _ => false

namespace Lnk

/-- Frames, none of them an answer, join the outbox. -/
def Adds (l l' : Lnk) : Prop := ∃ extra, l'.outbox = l.outbox ++ extra ∧ ∀ f ∈ extra, f.isAnswer = false

theorem Adds.refl (l : Lnk) : l.Adds l := ⟨[], by simp, by simp⟩

theorem Adds.trans {a b c : Lnk} (h : a.Adds b) (h' : b.Adds c) : a.Adds c := by
  obtain ⟨x, hx, hx'⟩ := h
  obtain ⟨y, hy, hy'⟩ := h'
  refine ⟨x ++ y, by simp [hy, hx], ?_⟩
  intro f hf
  rcases List.mem_append.mp hf with hf | hf
  · exact hx' f hf
  · exact hy' f hf

theorem take_adds (o : Offer) (l : Lnk) : l.Adds (l.take o) := by
  cases o with
  | notice n =>
    simp only [take, offer, push]
    split
    · exact ⟨[.notice n], rfl, by simp [OutFrame.isAnswer]⟩
    · exact ⟨[], by simp, by simp⟩
  | ended op out r data =>
    refine ⟨(l.held.filter fun h => h.op == op).map fun h => .final h.tag h.code out r data, rfl, ?_⟩
    intro f hf
    obtain ⟨x, _, rfl⟩ := List.mem_map.mp hf
    rfl

theorem fold_adds (os : List Offer) (l : Lnk) : l.Adds (os.foldl (fun l o => l.take o) l) := by
  induction os generalizing l with
  | nil => exact Adds.refl l
  | cons o os ih => exact (take_adds o l).trans (ih _)

theorem takeAll_adds (os : List Offer) (l : Lnk) : l.Adds (l.takeAll os) :=
  (fold_adds _ l).trans (fold_adds _ _)

/-- The capacities of R174 and R178. -/
def Within (l : Lnk) : Prop := l.held.length ≤ 4 ∧ l.outbox.length + l.held.length ≤ 32

theorem take_within {o : Offer} {l : Lnk} (h : l.Within) : (l.take o).Within := by
  obtain ⟨h1, h2⟩ := h
  cases o with
  | notice n =>
    have hl : limit n ≤ 28 := by unfold limit; split <;> omega
    unfold take offer
    dsimp only
    split
    · refine ⟨h1, ?_⟩
      simp only [push, List.length_append, List.length_cons, List.length_nil]
      omega
    · exact ⟨h1, h2⟩
  | ended op out r data =>
    have : (l.held.filter fun x => x.op != op).length + (l.held.filter fun x => x.op == op).length = l.held.length := by
      generalize l.held = xs
      induction xs with
      | nil => rfl
      | cons x xs ih =>
        by_cases hx : x.op = op
        · simp [hx]; omega
        · simp [hx]; omega
    refine ⟨?_, ?_⟩
    · exact Nat.le_trans (List.length_filter_le _ _) h1
    · simp only [take, release, List.length_append, List.length_map]
      omega

theorem fold_within {os : List Offer} {l : Lnk} (h : l.Within) : (os.foldl (fun l o => l.take o) l).Within := by
  induction os generalizing l with
  | nil => exact h
  | cons o os ih => exact ih (take_within h)

theorem takeAll_within {os : List Offer} {l : Lnk} (h : l.Within) : (l.takeAll os).Within := fold_within (fold_within h)

theorem take_rxBuf (o : Offer) (l : Lnk) : (l.take o).rxBuf = l.rxBuf := by
  cases o with
  | notice n =>
    simp only [take, offer, push]
    split <;> rfl
  | ended op out r data => rfl

theorem fold_rxBuf (os : List Offer) (l : Lnk) : (os.foldl (fun l o => l.take o) l).rxBuf = l.rxBuf := by
  induction os generalizing l with
  | nil => rfl
  | cons o os ih => exact (ih _).trans (take_rxBuf o l)

@[simp] theorem takeAll_rxBuf (os : List Offer) (l : Lnk) : (l.takeAll os).rxBuf = l.rxBuf :=
  (fold_rxBuf _ _).trans (fold_rxBuf _ _)

end Lnk

end Sys2Proof.Machine
end

