-- ==== Sys2Proof/Laws/Orders.lean ====
section
/-! SUPPORT. What an order comes to when it is taken at once (R177, R178): one lemma for each order row, and one for each
kind of answer a block gives. -/
namespace Sys2Proof.Machine

/-! ## Taking an order -/

@[simp] theorem takeOrders_of_empty {s : State} (h : s.lnk.rxBuf = []) : takeOrders s = s := by
  simp [takeOrders, h, intake]

theorem arrive_ready {s : State} (o : RxOrder) (h : s.Ready) :
    arrive o s = takeOrder o { s with lnk := { s.lnk with reception := none } } := by
  obtain ⟨h1, h2⟩ := h
  have : (⟨s.lnk.rate, none, [], s.lnk.outbox, s.lnk.held, s.lnk.lost⟩ : Lnk) = ⟨s.lnk.rate, none, s.lnk.rxBuf, s.lnk.outbox, s.lnk.held, s.lnk.lost⟩ := by rw [h1]
  simp [arrive, Config.rxCapacity, takeOrders, intake, Lnk.admits, h1, h2]

theorem takeOrder_short {held : Bool} {tag code : Byte} {body : List Byte} {s : State}
    (hc : isOrderCode code = true) (hl : isLongOperation code = false) (h1 : code ≠ 0x01) :
    takeOrder ⟨held, tag, code, body⟩ s =
      settleOrder ⟨held, tag, code, body⟩
        (handle code.toNat ⟨held, tag, code, body⟩ (Ev.begin s.toEnv s.toStore)) s := by
  unfold takeOrder RxOrder.wantsHeld
  rw [if_neg (by simp [hc]), if_neg (by simp [hl]), if_neg h1]



theorem takeOrder_long {h : OrderHead} {code : Byte} {body : List Byte} {s : State}
    (hc : isOrderCode code = true) (h1 : code ≠ 0x01) (m : s.MayHold h) :
    takeOrder ⟨h.held, h.tag, code, body⟩ s =
      settleOrder ⟨h.held, h.tag, code, body⟩
        (handle code.toNat ⟨h.held, h.tag, code, body⟩ (Ev.begin s.toEnv s.toStore)) s := by
  unfold takeOrder RxOrder.wantsHeld
  have : ¬ ((h.held && isLongOperation code && decide (Config.heldCapacity ≤ s.lnk.held.length)) = true) := by
    intro hx
    simp only [Bool.and_eq_true, decide_eq_true_eq] at hx
    have hm : s.lnk.held.length < 4 := m hx.1.1
    have hy := hx.2
    unfold Config.heldCapacity at hy
    omega
  rw [if_neg (by simp [hc]), if_neg this, if_neg h1]

/-- The state as an order's taking finds it: the frame in reception is complete. -/
def State.received (s : State) : State := { s with lnk := { s.lnk with reception := none } }

/-! ## What each kind of answer comes to -/

theorem settle_refused (s : State) (h : OrderHead) (code : Byte) (body : List Byte) (r : Reason) (data : List Byte) :
    settleOrder ⟨h.held, h.tag, code, body⟩ (.refused r data) s.received = s.answered h code .refused r data := rfl

theorem settle_report (s : State) (h : OrderHead) (code : Byte) (body data : List Byte) :
    settleOrder ⟨h.held, h.tag, code, body⟩ (.report data) s.received = s.answered h code .done .none data := rfl

theorem settle_quiet (s : State) (h : OrderHead) (code : Byte) (body : List Byte) (v : Env) (st : Store)
    (ns : List Notice) (data : List Byte) :
    settleOrder ⟨h.held, h.tag, code, body⟩ (.quiet v st ns data) s.received =
      s.holdingIn v st ((s.lnk.answered h code .done .none data).takeAll (ns.map .notice)) := rfl

theorem settle_acted (s : State) (h : OrderHead) (code : Byte) (body : List Byte) (out : Outcome) (data : List Byte)
    (v : Env) {e : Ev} (c : e.toStore.Calm) :
    settleOrder ⟨h.held, h.tag, code, body⟩ (.acted out none data v e) s.received =
      s.holdingIn v e.toStore
        ((s.lnk.answered h code out .none data).takeAll (e.offers ++ e.pnOffers ++ e.modeOffers)) :=
  finish_calm s.received _ v c

theorem respond_began (l : Lnk) (h : OrderHead) {code : Byte} (body : List Byte) (op : HeldOp) (data : List Byte)
    (hl : isLongOperation code = true) :
    Lnk.respond { l with reception := none } ⟨h.held, h.tag, code, body⟩ .started (some op) data =
      l.began h code op data := by
  unfold Lnk.respond Lnk.began RxOrder.wantsHeld
  cases h.held <;> simp [hl, Lnk.reply, Lnk.push, Lnk.answered]

theorem settle_began (s : State) (h : OrderHead) {code : Byte} (body : List Byte) (op : HeldOp) (data : List Byte)
    (v : Env) {e : Ev} (hl : isLongOperation code = true) (c : e.toStore.Calm) :
    settleOrder ⟨h.held, h.tag, code, body⟩ (.acted .started (some op) data v e) s.received =
      s.holdingIn v e.toStore ((s.lnk.began h code op data).takeAll (e.offers ++ e.pnOffers ++ e.modeOffers)) := by
  show finish s.received (Lnk.respond s.received.lnk _ _ _ _) v e.conclude = _
  rw [show s.received.lnk = { s.lnk with reception := none } from rfl, respond_began _ _ _ _ _ hl, finish_calm _ _ _ c]
  rfl

theorem settle_acted_still (s : State) (h : OrderHead) (code : Byte) (body : List Byte) (out : Outcome) (data : List Byte)
    (v : Env) {e : Ev} (c : e.toStore.Still) (q : e.anp.queue = [] ∨ e.anp.state ≠ .idle ∨ e.anp.fire = true) :
    settleOrder ⟨h.held, h.tag, code, body⟩ (.acted out none data v e) s.received =
      s.holdingIn v { e.toStore with blx := e.blx.assign }
        ((s.lnk.answered h code out .none data).takeAll (e.offers ++ e.pnOffers ++ e.modeOffers)) :=
  finish_still s.received _ v c q

theorem settle_began_still (s : State) (h : OrderHead) {code : Byte} (body : List Byte) (op : HeldOp) (data : List Byte)
    (v : Env) {e : Ev} (hl : isLongOperation code = true) (c : e.toStore.Still)
    (q : e.anp.queue = [] ∨ e.anp.state ≠ .idle ∨ e.anp.fire = true) :
    settleOrder ⟨h.held, h.tag, code, body⟩ (.acted .started (some op) data v e) s.received =
      s.holdingIn v { e.toStore with blx := e.blx.assign }
        ((s.lnk.began h code op data).takeAll (e.offers ++ e.pnOffers ++ e.modeOffers)) := by
  show finish s.received (Lnk.respond s.received.lnk _ _ _ _) v e.conclude = _
  rw [show s.received.lnk = { s.lnk with reception := none } from rfl, respond_began _ _ _ _ _ hl, finish_still _ _ _ c q]
  rfl

/-! ## One lemma for each order row -/

variable {s : State} {h : OrderHead} {body : List Byte}

theorem exec_short {c : Instr} {code : Byte} (r : s.Ready)
    (hx : exec c s = .next (arrive ⟨h.held, h.tag, code, body⟩ s))
    (hc : isOrderCode code = true) (hl : isLongOperation code = false) (h1 : code ≠ 0x01) :
    exec c s = .next (settleOrder ⟨h.held, h.tag, code, body⟩
      (handle code.toNat ⟨h.held, h.tag, code, body⟩ (Ev.begin s.toEnv s.toStore)) s.received) := by
  rw [hx, arrive_ready _ r, takeOrder_short hc hl h1]; rfl

theorem exec_long {c : Instr} {code : Byte} (r : s.Ready) (m : s.MayHold h)
    (hx : exec c s = .next (arrive ⟨h.held, h.tag, code, body⟩ s))
    (hc : isOrderCode code = true) (h1 : code ≠ 0x01) :
    exec c s = .next (settleOrder ⟨h.held, h.tag, code, body⟩
      (handle code.toNat ⟨h.held, h.tag, code, body⟩ (Ev.begin s.toEnv s.toStore)) s.received) := by
  rw [hx, arrive_ready _ r, takeOrder_long (s := { s with lnk := { s.lnk with reception := none } }) hc h1 m]; rfl

theorem exec_commence (r : s.Ready) : exec (.commence h body) s =
    .next (settleOrder ⟨h.held, h.tag, 0x02, body⟩
      (orderCommence ⟨h.held, h.tag, 0x02, body⟩ (Ev.begin s.toEnv s.toStore)) s.received) :=
  exec_short r rfl (by decide) (by decide) (by decide)

theorem exec_restart (r : s.Ready) : exec (.restart h body) s =
    .next (settleOrder ⟨h.held, h.tag, 0x03, body⟩
      (orderRestart ⟨h.held, h.tag, 0x03, body⟩ (Ev.begin s.toEnv s.toStore)) s.received) :=
  exec_short r rfl (by decide) (by decide) (by decide)

theorem exec_wake (r : s.Ready) : exec (.wake h body) s =
    .next (settleOrder ⟨h.held, h.tag, 0x04, body⟩
      (orderWake ⟨h.held, h.tag, 0x04, body⟩ (Ev.begin s.toEnv s.toStore)) s.received) :=
  exec_short r rfl (by decide) (by decide) (by decide)

theorem exec_clearWake (r : s.Ready) : exec (.clearWake h body) s =
    .next (settleOrder ⟨h.held, h.tag, 0x05, body⟩
      (orderClearWake ⟨h.held, h.tag, 0x05, body⟩ (Ev.begin s.toEnv s.toStore)) s.received) :=
  exec_short r rfl (by decide) (by decide) (by decide)

theorem exec_forceNight (r : s.Ready) : exec (.forceNight h body) s =
    .next (settleOrder ⟨h.held, h.tag, 0x06, body⟩
      (orderForceNight ⟨h.held, h.tag, 0x06, body⟩ (Ev.begin s.toEnv s.toStore)) s.received) :=
  exec_short r rfl (by decide) (by decide) (by decide)

theorem exec_permitsSet (r : s.Ready) : exec (.permitsSet h body) s =
    .next (settleOrder ⟨h.held, h.tag, 0x07, body⟩
      (orderPermitsSet ⟨h.held, h.tag, 0x07, body⟩ (Ev.begin s.toEnv s.toStore)) s.received) :=
  exec_short r rfl (by decide) (by decide) (by decide)

theorem exec_chainSet (r : s.Ready) : exec (.chainSet h body) s =
    .next (settleOrder ⟨h.held, h.tag, 0x10, body⟩
      (orderChainSet ⟨h.held, h.tag, 0x10, body⟩ (Ev.begin s.toEnv s.toStore)) s.received) :=
  exec_short r rfl (by decide) (by decide) (by decide)

theorem exec_landingSet (r : s.Ready) : exec (.landingSet h body) s =
    .next (settleOrder ⟨h.held, h.tag, 0x11, body⟩
      (orderLandingSet ⟨h.held, h.tag, 0x11, body⟩ (Ev.begin s.toEnv s.toStore)) s.received) :=
  exec_short r rfl (by decide) (by decide) (by decide)

theorem exec_landingRead (r : s.Ready) : exec (.landingRead h body) s =
    .next (settleOrder ⟨h.held, h.tag, 0x12, body⟩
      (orderLandingRead ⟨h.held, h.tag, 0x12, body⟩ (Ev.begin s.toEnv s.toStore)) s.received) :=
  exec_short r rfl (by decide) (by decide) (by decide)

theorem exec_clearDerive (r : s.Ready) : exec (.clearDerive h body) s =
    .next (settleOrder ⟨h.held, h.tag, 0x13, body⟩
      (orderClearDerive ⟨h.held, h.tag, 0x13, body⟩ (Ev.begin s.toEnv s.toStore)) s.received) :=
  exec_short r rfl (by decide) (by decide) (by decide)

theorem exec_clearRead (r : s.Ready) : exec (.clearRead h body) s =
    .next (settleOrder ⟨h.held, h.tag, 0x14, body⟩
      (orderClearRead ⟨h.held, h.tag, 0x14, body⟩ (Ev.begin s.toEnv s.toStore)) s.received) :=
  exec_short r rfl (by decide) (by decide) (by decide)

theorem exec_survey (r : s.Ready) (m : s.MayHold h) : exec (.survey h body) s =
    .next (settleOrder ⟨h.held, h.tag, 0x15, body⟩
      (orderSurvey ⟨h.held, h.tag, 0x15, body⟩ (Ev.begin s.toEnv s.toStore)) s.received) :=
  exec_long r m rfl (by decide) (by decide)

theorem exec_pnStart (r : s.Ready) (m : s.MayHold h) : exec (.pnStart h body) s =
    .next (settleOrder ⟨h.held, h.tag, 0x16, body⟩
      (orderPnStart ⟨h.held, h.tag, 0x16, body⟩ (Ev.begin s.toEnv s.toStore)) s.received) :=
  exec_long r m rfl (by decide) (by decide)

theorem exec_pnStop (r : s.Ready) (m : s.MayHold h) : exec (.pnStop h body) s =
    .next (settleOrder ⟨h.held, h.tag, 0x17, body⟩
      (orderPnStop ⟨h.held, h.tag, 0x17, body⟩ (Ev.begin s.toEnv s.toStore)) s.received) :=
  exec_long r m rfl (by decide) (by decide)

theorem exec_pnSweep (r : s.Ready) (m : s.MayHold h) : exec (.pnSweep h body) s =
    .next (settleOrder ⟨h.held, h.tag, 0x18, body⟩
      (orderPnSweep ⟨h.held, h.tag, 0x18, body⟩ (Ev.begin s.toEnv s.toStore)) s.received) :=
  exec_long r m rfl (by decide) (by decide)

theorem exec_pnNightLock (r : s.Ready) : exec (.pnNightLock h body) s =
    .next (settleOrder ⟨h.held, h.tag, 0x19, body⟩
      (orderPnNightLock ⟨h.held, h.tag, 0x19, body⟩ (Ev.begin s.toEnv s.toStore)) s.received) :=
  exec_short r rfl (by decide) (by decide) (by decide)

theorem exec_pnHalt (r : s.Ready) : exec (.pnHalt h body) s =
    .next (settleOrder ⟨h.held, h.tag, 0x1A, body⟩
      (orderPnHalt ⟨h.held, h.tag, 0x1A, body⟩ (Ev.begin s.toEnv s.toStore)) s.received) :=
  exec_short r rfl (by decide) (by decide) (by decide)

theorem exec_pnReset (r : s.Ready) : exec (.pnReset h body) s =
    .next (settleOrder ⟨h.held, h.tag, 0x1B, body⟩
      (orderPnReset ⟨h.held, h.tag, 0x1B, body⟩ (Ev.begin s.toEnv s.toStore)) s.received) :=
  exec_short r rfl (by decide) (by decide) (by decide)

theorem exec_pnUnlock (r : s.Ready) : exec (.pnUnlock h body) s =
    .next (settleOrder ⟨h.held, h.tag, 0x1C, body⟩
      (orderPnUnlock ⟨h.held, h.tag, 0x1C, body⟩ (Ev.begin s.toEnv s.toStore)) s.received) :=
  exec_short r rfl (by decide) (by decide) (by decide)

theorem exec_pnRead (r : s.Ready) : exec (.pnRead h body) s =
    .next (settleOrder ⟨h.held, h.tag, 0x1D, body⟩
      (orderPnRead ⟨h.held, h.tag, 0x1D, body⟩ (Ev.begin s.toEnv s.toStore)) s.received) :=
  exec_short r rfl (by decide) (by decide) (by decide)

theorem exec_shutterSet (r : s.Ready) : exec (.shutterSet h body) s =
    .next (settleOrder ⟨h.held, h.tag, 0x20, body⟩
      (orderShutterSet ⟨h.held, h.tag, 0x20, body⟩ (Ev.begin s.toEnv s.toStore)) s.received) :=
  exec_short r rfl (by decide) (by decide) (by decide)

theorem exec_shutterRead (r : s.Ready) : exec (.shutterRead h body) s =
    .next (settleOrder ⟨h.held, h.tag, 0x21, body⟩
      (orderShutterRead ⟨h.held, h.tag, 0x21, body⟩ (Ev.begin s.toEnv s.toStore)) s.received) :=
  exec_short r rfl (by decide) (by decide) (by decide)

theorem exec_shutterClose (r : s.Ready) (m : s.MayHold h) : exec (.shutterClose h body) s =
    .next (settleOrder ⟨h.held, h.tag, 0x22, body⟩
      (orderShutterClose ⟨h.held, h.tag, 0x22, body⟩ (Ev.begin s.toEnv s.toStore)) s.received) :=
  exec_long r m rfl (by decide) (by decide)

theorem exec_shutterRaise (r : s.Ready) (m : s.MayHold h) : exec (.shutterRaise h body) s =
    .next (settleOrder ⟨h.held, h.tag, 0x23, body⟩
      (orderShutterRaise ⟨h.held, h.tag, 0x23, body⟩ (Ev.begin s.toEnv s.toStore)) s.received) :=
  exec_long r m rfl (by decide) (by decide)

theorem exec_shutterStop (r : s.Ready) : exec (.shutterStop h body) s =
    .next (settleOrder ⟨h.held, h.tag, 0x24, body⟩
      (orderShutterStop ⟨h.held, h.tag, 0x24, body⟩ (Ev.begin s.toEnv s.toStore)) s.received) :=
  exec_short r rfl (by decide) (by decide) (by decide)

theorem exec_shutterClear (r : s.Ready) : exec (.shutterClear h body) s =
    .next (settleOrder ⟨h.held, h.tag, 0x25, body⟩
      (orderShutterClear ⟨h.held, h.tag, 0x25, body⟩ (Ev.begin s.toEnv s.toStore)) s.received) :=
  exec_short r rfl (by decide) (by decide) (by decide)

theorem exec_zoneSet (r : s.Ready) : exec (.zoneSet h body) s =
    .next (settleOrder ⟨h.held, h.tag, 0x30, body⟩
      (orderZoneSet ⟨h.held, h.tag, 0x30, body⟩ (Ev.begin s.toEnv s.toStore)) s.received) :=
  exec_short r rfl (by decide) (by decide) (by decide)

theorem exec_zoneRead (r : s.Ready) : exec (.zoneRead h body) s =
    .next (settleOrder ⟨h.held, h.tag, 0x31, body⟩
      (orderZoneRead ⟨h.held, h.tag, 0x31, body⟩ (Ev.begin s.toEnv s.toStore)) s.received) :=
  exec_short r rfl (by decide) (by decide) (by decide)

theorem exec_zoneDeclare (r : s.Ready) : exec (.zoneDeclare h body) s =
    .next (settleOrder ⟨h.held, h.tag, 0x32, body⟩
      (orderZoneDeclare ⟨h.held, h.tag, 0x32, body⟩ (Ev.begin s.toEnv s.toStore)) s.received) :=
  exec_short r rfl (by decide) (by decide) (by decide)

theorem exec_zoneReset (r : s.Ready) : exec (.zoneReset h body) s =
    .next (settleOrder ⟨h.held, h.tag, 0x33, body⟩
      (orderZoneReset ⟨h.held, h.tag, 0x33, body⟩ (Ev.begin s.toEnv s.toStore)) s.received) :=
  exec_short r rfl (by decide) (by decide) (by decide)

theorem exec_zoneDisable (r : s.Ready) : exec (.zoneDisable h body) s =
    .next (settleOrder ⟨h.held, h.tag, 0x34, body⟩
      (orderZoneDisable ⟨h.held, h.tag, 0x34, body⟩ (Ev.begin s.toEnv s.toStore)) s.received) :=
  exec_short r rfl (by decide) (by decide) (by decide)

theorem exec_zoneEnable (r : s.Ready) : exec (.zoneEnable h body) s =
    .next (settleOrder ⟨h.held, h.tag, 0x35, body⟩
      (orderZoneEnable ⟨h.held, h.tag, 0x35, body⟩ (Ev.begin s.toEnv s.toStore)) s.received) :=
  exec_short r rfl (by decide) (by decide) (by decide)

theorem exec_fireSet (r : s.Ready) : exec (.fireSet h body) s =
    .next (settleOrder ⟨h.held, h.tag, 0x36, body⟩
      (orderFireSet ⟨h.held, h.tag, 0x36, body⟩ (Ev.begin s.toEnv s.toStore)) s.received) :=
  exec_short r rfl (by decide) (by decide) (by decide)

theorem exec_bellSet (r : s.Ready) : exec (.bellSet h body) s =
    .next (settleOrder ⟨h.held, h.tag, 0x40, body⟩
      (orderBellSet ⟨h.held, h.tag, 0x40, body⟩ (Ev.begin s.toEnv s.toStore)) s.received) :=
  exec_short r rfl (by decide) (by decide) (by decide)

theorem exec_callPost (r : s.Ready) (m : s.MayHold h) : exec (.callPost h body) s =
    .next (settleOrder ⟨h.held, h.tag, 0x41, body⟩
      (orderCallPost ⟨h.held, h.tag, 0x41, body⟩ (Ev.begin s.toEnv s.toStore)) s.received) :=
  exec_long r m rfl (by decide) (by decide)

theorem exec_callCancel (r : s.Ready) : exec (.callCancel h body) s =
    .next (settleOrder ⟨h.held, h.tag, 0x42, body⟩
      (orderCallCancel ⟨h.held, h.tag, 0x42, body⟩ (Ev.begin s.toEnv s.toStore)) s.received) :=
  exec_short r rfl (by decide) (by decide) (by decide)

theorem exec_callRead (r : s.Ready) : exec (.callRead h body) s =
    .next (settleOrder ⟨h.held, h.tag, 0x43, body⟩
      (orderCallRead ⟨h.held, h.tag, 0x43, body⟩ (Ev.begin s.toEnv s.toStore)) s.received) :=
  exec_short r rfl (by decide) (by decide) (by decide)

theorem exec_phraseDeclare (r : s.Ready) : exec (.phraseDeclare h body) s =
    .next (settleOrder ⟨h.held, h.tag, 0x50, body⟩
      (orderPhraseDeclare ⟨h.held, h.tag, 0x50, body⟩ (Ev.begin s.toEnv s.toStore)) s.received) :=
  exec_short r rfl (by decide) (by decide) (by decide)

theorem exec_phraseLoad (r : s.Ready) : exec (.phraseLoad h body) s =
    .next (settleOrder ⟨h.held, h.tag, 0x51, body⟩
      (orderPhraseLoad ⟨h.held, h.tag, 0x51, body⟩ (Ev.begin s.toEnv s.toStore)) s.received) :=
  exec_short r rfl (by decide) (by decide) (by decide)

theorem exec_phraseRead (r : s.Ready) : exec (.phraseRead h body) s =
    .next (settleOrder ⟨h.held, h.tag, 0x52, body⟩
      (orderPhraseRead ⟨h.held, h.tag, 0x52, body⟩ (Ev.begin s.toEnv s.toStore)) s.received) :=
  exec_short r rfl (by decide) (by decide) (by decide)

theorem exec_scriptSet (r : s.Ready) : exec (.scriptSet h body) s =
    .next (settleOrder ⟨h.held, h.tag, 0x60, body⟩
      (orderScriptSet ⟨h.held, h.tag, 0x60, body⟩ (Ev.begin s.toEnv s.toStore)) s.received) :=
  exec_short r rfl (by decide) (by decide) (by decide)

theorem exec_scriptRead (r : s.Ready) : exec (.scriptRead h body) s =
    .next (settleOrder ⟨h.held, h.tag, 0x61, body⟩
      (orderScriptRead ⟨h.held, h.tag, 0x61, body⟩ (Ev.begin s.toEnv s.toStore)) s.received) :=
  exec_short r rfl (by decide) (by decide) (by decide)

theorem exec_announce (r : s.Ready) (m : s.MayHold h) : exec (.announce h body) s =
    .next (settleOrder ⟨h.held, h.tag, 0x62, body⟩
      (orderAnnounce ⟨h.held, h.tag, 0x62, body⟩ (Ev.begin s.toEnv s.toStore)) s.received) :=
  exec_long r m rfl (by decide) (by decide)

theorem exec_announceCancel (r : s.Ready) : exec (.announceCancel h body) s =
    .next (settleOrder ⟨h.held, h.tag, 0x63, body⟩
      (orderAnnounceCancel ⟨h.held, h.tag, 0x63, body⟩ (Ev.begin s.toEnv s.toStore)) s.received) :=
  exec_short r rfl (by decide) (by decide) (by decide)

theorem exec_announceRead (r : s.Ready) : exec (.announceRead h body) s =
    .next (settleOrder ⟨h.held, h.tag, 0x64, body⟩
      (orderAnnounceRead ⟨h.held, h.tag, 0x64, body⟩ (Ev.begin s.toEnv s.toStore)) s.received) :=
  exec_short r rfl (by decide) (by decide) (by decide)

theorem exec_timeSet (r : s.Ready) : exec (.timeSet h body) s =
    .next (settleOrder ⟨h.held, h.tag, 0x70, body⟩
      (orderTimeSet ⟨h.held, h.tag, 0x70, body⟩ (Ev.begin s.toEnv s.toStore)) s.received) :=
  exec_short r rfl (by decide) (by decide) (by decide)

theorem exec_timeRead (r : s.Ready) : exec (.timeRead h body) s =
    .next (settleOrder ⟨h.held, h.tag, 0x71, body⟩
      (orderTimeRead ⟨h.held, h.tag, 0x71, body⟩ (Ev.begin s.toEnv s.toStore)) s.received) :=
  exec_short r rfl (by decide) (by decide) (by decide)

theorem exec_trimSet (r : s.Ready) : exec (.trimSet h body) s =
    .next (settleOrder ⟨h.held, h.tag, 0x72, body⟩
      (orderTrimSet ⟨h.held, h.tag, 0x72, body⟩ (Ev.begin s.toEnv s.toStore)) s.received) :=
  exec_short r rfl (by decide) (by decide) (by decide)

theorem exec_timebaseClear (r : s.Ready) : exec (.timebaseClear h body) s =
    .next (settleOrder ⟨h.held, h.tag, 0x73, body⟩
      (orderTimebaseClear ⟨h.held, h.tag, 0x73, body⟩ (Ev.begin s.toEnv s.toStore)) s.received) :=
  exec_short r rfl (by decide) (by decide) (by decide)

theorem exec_weekSet (r : s.Ready) : exec (.weekSet h body) s =
    .next (settleOrder ⟨h.held, h.tag, 0x74, body⟩
      (orderWeekSet ⟨h.held, h.tag, 0x74, body⟩ (Ev.begin s.toEnv s.toStore)) s.received) :=
  exec_short r rfl (by decide) (by decide) (by decide)

theorem exec_exceptionSet (r : s.Ready) : exec (.exceptionSet h body) s =
    .next (settleOrder ⟨h.held, h.tag, 0x75, body⟩
      (orderExceptionSet ⟨h.held, h.tag, 0x75, body⟩ (Ev.begin s.toEnv s.toStore)) s.received) :=
  exec_short r rfl (by decide) (by decide) (by decide)

theorem exec_exceptionRemove (r : s.Ready) : exec (.exceptionRemove h body) s =
    .next (settleOrder ⟨h.held, h.tag, 0x76, body⟩
      (orderExceptionRemove ⟨h.held, h.tag, 0x76, body⟩ (Ev.begin s.toEnv s.toStore)) s.received) :=
  exec_short r rfl (by decide) (by decide) (by decide)

theorem exec_hoursRead (r : s.Ready) : exec (.hoursRead h body) s =
    .next (settleOrder ⟨h.held, h.tag, 0x77, body⟩
      (orderHoursRead ⟨h.held, h.tag, 0x77, body⟩ (Ev.begin s.toEnv s.toStore)) s.received) :=
  exec_short r rfl (by decide) (by decide) (by decide)

theorem exec_stampRead (r : s.Ready) : exec (.stampRead h body) s =
    .next (settleOrder ⟨h.held, h.tag, 0x78, body⟩
      (orderStampRead ⟨h.held, h.tag, 0x78, body⟩ (Ev.begin s.toEnv s.toStore)) s.received) :=
  exec_short r rfl (by decide) (by decide) (by decide)

theorem exec_stampClear (r : s.Ready) : exec (.stampClear h body) s =
    .next (settleOrder ⟨h.held, h.tag, 0x79, body⟩
      (orderStampClear ⟨h.held, h.tag, 0x79, body⟩ (Ev.begin s.toEnv s.toStore)) s.received) :=
  exec_short r rfl (by decide) (by decide) (by decide)

theorem exec_stampMode (r : s.Ready) : exec (.stampMode h body) s =
    .next (settleOrder ⟨h.held, h.tag, 0x7A, body⟩
      (orderStampMode ⟨h.held, h.tag, 0x7A, body⟩ (Ev.begin s.toEnv s.toStore)) s.received) :=
  exec_short r rfl (by decide) (by decide) (by decide)

theorem exec_programmeSet (r : s.Ready) : exec (.programmeSet h body) s =
    .next (settleOrder ⟨h.held, h.tag, 0x80, body⟩
      (orderProgrammeSet ⟨h.held, h.tag, 0x80, body⟩ (Ev.begin s.toEnv s.toStore)) s.received) :=
  exec_short r rfl (by decide) (by decide) (by decide)

theorem exec_programmeRead (r : s.Ready) : exec (.programmeRead h body) s =
    .next (settleOrder ⟨h.held, h.tag, 0x81, body⟩
      (orderProgrammeRead ⟨h.held, h.tag, 0x81, body⟩ (Ev.begin s.toEnv s.toStore)) s.received) :=
  exec_short r rfl (by decide) (by decide) (by decide)

theorem exec_closingBegin (r : s.Ready) : exec (.closingBegin h body) s =
    .next (settleOrder ⟨h.held, h.tag, 0x82, body⟩
      (orderClosingBegin ⟨h.held, h.tag, 0x82, body⟩ (Ev.begin s.toEnv s.toStore)) s.received) :=
  exec_short r rfl (by decide) (by decide) (by decide)

theorem exec_closingCancel (r : s.Ready) : exec (.closingCancel h body) s =
    .next (settleOrder ⟨h.held, h.tag, 0x83, body⟩
      (orderClosingCancel ⟨h.held, h.tag, 0x83, body⟩ (Ev.begin s.toEnv s.toStore)) s.received) :=
  exec_short r rfl (by decide) (by decide) (by decide)

theorem exec_runRead (r : s.Ready) : exec (.runRead h body) s =
    .next (settleOrder ⟨h.held, h.tag, 0x84, body⟩
      (orderRunRead ⟨h.held, h.tag, 0x84, body⟩ (Ev.begin s.toEnv s.toStore)) s.received) :=
  exec_short r rfl (by decide) (by decide) (by decide)

end Sys2Proof.Machine
end

