-- ==== Sys2Proof/Laws/Moves.lean ====
section
/-! SUPPORT. What an event leaves of each block, read off the end of the event; what keeps a store calm; when the end of an event leaves
the paternoster as its claims made it; and what the settle wait's end comes to when the settle is judged (R48, R49). -/
namespace Sys2Proof.Machine

theorem demandOff_iff (s : Store) : s.demandOff = true ↔ s.demand = .off := by
  simp [Store.demandOff, Store.demand]

/-! ## The blocks after a field event -/

section
variable (v : Env) (f : Ev → Ev) (s : State)

@[simp] theorem event_msu : (event v f s).msu = (f (Ev.begin v s.toStore)).conclude.msu := by
  unfold event finish Store.driven; with_reducible rfl
@[simp] theorem event_pnc : (event v f s).pnc = (f (Ev.begin v s.toStore)).conclude.pnc := by
  unfold event finish Store.driven; with_reducible rfl
@[simp] theorem event_shc : (event v f s).shc = (f (Ev.begin v s.toStore)).conclude.shc := by
  unfold event finish Store.driven; with_reducible rfl
@[simp] theorem event_fzu : (event v f s).fzu = (f (Ev.begin v s.toStore)).conclude.fzu := by
  unfold event finish Store.driven; with_reducible rfl
@[simp] theorem event_blx : (event v f s).blx = (f (Ev.begin v s.toStore)).conclude.blx := by
  unfold event finish Store.driven; with_reducible rfl
@[simp] theorem event_anp : (event v f s).anp = (f (Ev.begin v s.toStore)).conclude.anp := by
  unfold event finish Store.driven; with_reducible rfl
@[simp] theorem event_cpu : (event v f s).cpu = (f (Ev.begin v s.toStore)).conclude.cpu := by
  unfold event finish Store.driven; with_reducible rfl
@[simp] theorem event_stamps : (event v f s).stamps = (f (Ev.begin v s.toStore)).conclude.stamps := by
  unfold event finish Store.driven; with_reducible rfl
@[simp] theorem event_cht_settings : (event v f s).cht.settings = (f (Ev.begin v s.toStore)).conclude.cht.settings := by
  unfold event finish Store.driven; with_reducible rfl
@[simp] theorem event_cht_landings : (event v f s).cht.landings = (f (Ev.begin v s.toStore)).conclude.cht.landings := by
  unfold event finish Store.driven; with_reducible rfl
@[simp] theorem event_cht_clearList : (event v f s).cht.clearList = (f (Ev.begin v s.toStore)).conclude.cht.clearList := by
  unfold event finish Store.driven; with_reducible rfl
@[simp] theorem event_cht_position : (event v f s).cht.position = (f (Ev.begin v s.toStore)).conclude.cht.position := by
  unfold event finish Store.driven; with_reducible rfl
@[simp] theorem event_cht_settled : (event v f s).cht.settled = (f (Ev.begin v s.toStore)).conclude.cht.settled := by
  unfold event finish Store.driven; with_reducible rfl
@[simp] theorem event_cht_settleWait : (event v f s).cht.settleWait = (f (Ev.begin v s.toStore)).conclude.cht.settleWait := by
  unfold event finish Store.driven; with_reducible rfl
@[simp] theorem event_cht_survey : (event v f s).cht.survey = (f (Ev.begin v s.toStore)).conclude.cht.survey := by
  unfold event finish Store.driven; with_reducible rfl
@[simp] theorem event_cht_surveyTimer : (event v f s).cht.surveyTimer = (f (Ev.begin v s.toStore)).conclude.cht.surveyTimer := by
  unfold event finish Store.driven; with_reducible rfl
@[simp] theorem event_demand : (event v f s).out.demand = (f (Ev.begin v s.toStore)).conclude.pnc.state.demand := by
  unfold event finish Store.driven outputs Store.demand; with_reducible rfl
@[simp] theorem event_spk : (event v f s).out.spk = (outputs (f (Ev.begin v s.toStore)).conclude.toStore v.phs).spk := by
  unfold event finish Store.driven; with_reducible rfl
@[simp] theorem event_ampEn : (event v f s).out.ampEn = (outputs (f (Ev.begin v s.toStore)).conclude.toStore v.phs).ampEn := by
  unfold event finish Store.driven; with_reducible rfl
@[simp] theorem event_lnk : (event v f s).lnk = s.lnk.takeAll (f (Ev.begin v s.toStore)).conclude.offers := by
  unfold event finish; with_reducible rfl

end

/-- A field event keeps the settings when its claims do. -/
theorem event_sameSettings {s : State} {f : Ev → Ev} {l : Lines}
    (h1 : (f (Ev.begin { s.toEnv with lines := l } s.toStore)).cht.settings = s.cht.settings)
    (h2 : (f (Ev.begin { s.toEnv with lines := l } s.toStore)).cht.landings = s.cht.landings)
    (h3 : (f (Ev.begin { s.toEnv with lines := l } s.toStore)).cht.clearList = s.cht.clearList)
    (h4 : (f (Ev.begin { s.toEnv with lines := l } s.toStore)).blx.present = s.blx.present)
    (h5 : (f (Ev.begin { s.toEnv with lines := l } s.toStore)).anp.scripts = s.anp.scripts)
    (h6 : (f (Ev.begin { s.toEnv with lines := l } s.toStore)).cpu.programme = s.cpu.programme)
    (h7 : (f (Ev.begin { s.toEnv with lines := l } s.toStore)).cpu.start = s.cpu.start) :
    s.SameSettings (lineEvent l f s) := by
  unfold lineEvent
  constructor <;> simp [*]

/-! ## The blocks after an order that acts -/

section
variable (s : State) (o : RxOrder) (out : Outcome) (op : Option HeldOp) (data : List Byte) (v : Env) (e : Ev)

@[simp] theorem acted_msu : (settleOrder o (.acted out op data v e) s).msu = e.conclude.msu := by
  unfold settleOrder finish Store.driven; with_reducible rfl
@[simp] theorem acted_pnc : (settleOrder o (.acted out op data v e) s).pnc = e.conclude.pnc := by
  unfold settleOrder finish Store.driven; with_reducible rfl
@[simp] theorem acted_shc : (settleOrder o (.acted out op data v e) s).shc = e.conclude.shc := by
  unfold settleOrder finish Store.driven; with_reducible rfl
@[simp] theorem acted_fzu : (settleOrder o (.acted out op data v e) s).fzu = e.conclude.fzu := by
  unfold settleOrder finish Store.driven; with_reducible rfl
@[simp] theorem acted_blx : (settleOrder o (.acted out op data v e) s).blx = e.conclude.blx := by
  unfold settleOrder finish Store.driven; with_reducible rfl
@[simp] theorem acted_anp : (settleOrder o (.acted out op data v e) s).anp = e.conclude.anp := by
  unfold settleOrder finish Store.driven; with_reducible rfl
@[simp] theorem acted_cpu : (settleOrder o (.acted out op data v e) s).cpu = e.conclude.cpu := by
  unfold settleOrder finish Store.driven; with_reducible rfl
@[simp] theorem acted_stamps : (settleOrder o (.acted out op data v e) s).stamps = e.conclude.stamps := by
  unfold settleOrder finish Store.driven; with_reducible rfl
@[simp] theorem acted_cht_settings : (settleOrder o (.acted out op data v e) s).cht.settings = e.conclude.cht.settings := by
  unfold settleOrder finish Store.driven; with_reducible rfl
@[simp] theorem acted_cht_landings : (settleOrder o (.acted out op data v e) s).cht.landings = e.conclude.cht.landings := by
  unfold settleOrder finish Store.driven; with_reducible rfl
@[simp] theorem acted_cht_clearList : (settleOrder o (.acted out op data v e) s).cht.clearList = e.conclude.cht.clearList := by
  unfold settleOrder finish Store.driven; with_reducible rfl
@[simp] theorem acted_cht_position : (settleOrder o (.acted out op data v e) s).cht.position = e.conclude.cht.position := by
  unfold settleOrder finish Store.driven; with_reducible rfl
@[simp] theorem acted_cht_settled : (settleOrder o (.acted out op data v e) s).cht.settled = e.conclude.cht.settled := by
  unfold settleOrder finish Store.driven; with_reducible rfl
@[simp] theorem acted_cht_settleWait : (settleOrder o (.acted out op data v e) s).cht.settleWait = e.conclude.cht.settleWait := by
  unfold settleOrder finish Store.driven; with_reducible rfl
@[simp] theorem acted_cht_survey : (settleOrder o (.acted out op data v e) s).cht.survey = e.conclude.cht.survey := by
  unfold settleOrder finish Store.driven; with_reducible rfl
@[simp] theorem acted_cht_surveyTimer : (settleOrder o (.acted out op data v e) s).cht.surveyTimer = e.conclude.cht.surveyTimer := by
  unfold settleOrder finish Store.driven; with_reducible rfl
@[simp] theorem acted_demand : (settleOrder o (.acted out op data v e) s).out.demand = e.conclude.pnc.state.demand := by
  unfold settleOrder finish Store.driven outputs Store.demand; with_reducible rfl
@[simp] theorem acted_toEnv : (settleOrder o (.acted out op data v e) s).toEnv = v := by
  unfold settleOrder finish; with_reducible rfl

end

/-- An order that acts keeps the settings when its claims do. -/
theorem acted_sameSettings {s s' : State} {o : RxOrder} {out : Outcome} {op : Option HeldOp} {data : List Byte} {e : Ev}
    (h1 : e.cht.settings = s.cht.settings) (h2 : e.cht.landings = s.cht.landings)
    (h3 : e.cht.clearList = s.cht.clearList) (h4 : e.blx.present = s.blx.present)
    (h5 : e.anp.scripts = s.anp.scripts) (h6 : e.cpu.programme = s.cpu.programme) (h7 : e.cpu.start = s.cpu.start) :
    s.SameSettings (settleOrder o (.acted out op data s.toEnv e) s') := by
  constructor <;> simp [*]

/-- The answer of an order that acts stands where the outbox ended. -/
theorem acted_answers (s : State) (h : OrderHead) (code : Byte) (body : List Byte) (out : Outcome) (data : List Byte)
    (v : Env) (e : Ev) :
    s.Answers (settleOrder ⟨h.held, h.tag, code, body⟩ (.acted out none data v e) s.received) h code out .none data := by
  obtain ⟨x, hx, _⟩ :=
    Lnk.takeAll_adds e.conclude.offers (Lnk.respond s.received.lnk ⟨h.held, h.tag, code, body⟩ out none data)
  show (Lnk.takeAll _ _).outbox[s.lnk.outbox.length]? = _
  rw [hx]
  simp [Lnk.respond, Lnk.reply, Lnk.push, State.received]

/-! ## Calm stores -/

/-- Claims of Paternoster Control and the Chain Tracker leave a calm store calm, unless they bring the demand OFF or a settle to
judge. -/
theorem Store.Calm.moved {st : Store} {e : Ev} (c : st.Calm) (hf : e.fzu.fire = false)
    (hs : ¬ (e.pnc.state = .settling ∧ (e.cht.settled = true ∨ e.pnc.purpose = .fire))) (hc : e.shc = st.shc)
    (hd : e.toStore.demandOff = true → st.demandOff = true) (hu : e.cpu = st.cpu) (ha : e.anp = st.anp)
    (hb : e.blx = st.blx) : e.toStore.Calm := by
  refine ⟨⟨hf, hs, ?_, ?_, ?_⟩, ?_, ?_⟩
  · intro i sh h
    rw [hc] at h
    obtain ⟨h1, h2⟩ := c.noRelease i sh h
    refine ⟨h1, fun hw => ?_⟩
    cases hx : e.toStore.demandOff with
    | false => rfl
    | true => rw [h2 hw] at hd; exact absurd (hd hx) (by simp)
  · rw [hu]; exact c.noDeferred
  · rw [hu]; exact c.noNight
  · rw [ha]; exact c.noHead
  · rw [hb]; exact c.noAssign

/-- With every cause input inactive none counts (R41). -/
theorem causeActive_begin {v : Env} {st : Store} (h1 : v.lines.cords = 0) (h2 : v.lines.guards = 0)
    (h3 : v.lines.drvFault = false) : (Ev.begin v st).causeActive = false := by
  simp [Ev.causeActive, Ev.activeCords, Ev.activeGuards, Ev.begin, h1, h2, h3]

namespace Ev

/-! ## The paternoster at the end of an event -/

theorem rechoose_none {e : Ev} (h : ¬ (e.pnc.state = .settling ∧ (e.cht.settled = true ∨ e.pnc.purpose = .fire))) :
    e.rechoose = e := by
  simp only [rechoose, when]
  split
  · rename_i hx
    simp at hx
    exact absurd ⟨hx.1.1.1, .inr hx.1.1.2⟩ h
  · rfl

theorem judgeIfSettled_none {e : Ev} (h : ¬ (e.pnc.state = .settling ∧ (e.cht.settled = true ∨ e.pnc.purpose = .fire))) :
    e.judgeIfSettled = e := by
  simp only [judgeIfSettled, when]
  split
  · rename_i hx
    simp at hx
    exact absurd ⟨hx.1, .inl hx.2⟩ h
  · rfl

/-- Without a fire, a settle to judge, a deferred step or a waiting night, the end of an event leaves the paternoster, the chain,
the run and the mode as the event's claims made them. -/
theorem conclude_quiet {e : Ev} (hf : e.fzu.fire = false)
    (h : ¬ (e.pnc.state = .settling ∧ (e.cht.settled = true ∨ e.pnc.purpose = .fire)))
    (hd : (e.cpu.stepsWhere fun _ o => o == .deferred) = [])
    (hn : (e.cpu.stepsWhere fun a o => a == .night && o == .waiting) = []) :
    e.conclude.pnc = e.pnc ∧ e.conclude.cht = e.cht ∧ e.conclude.cpu = e.cpu ∧ e.conclude.msu = e.msu := by
  have c : e.evaluateFire = e.seen := by simp [evaluateFire, when, hf]
  have d : e.seen.settleStations.evaluateAgain = e.seen.settleStations.seen := by simp [evaluateAgain, when, seen, hf]
  have hcpu : e.seen.settleStations.seen.cpu = e.cpu := by simp [seen]
  have h6 : e.seen.settleStations.seen.retakeDeferred = e.seen.settleStations.seen := by
    unfold retakeDeferred
    split
    · split
      · rfl
      · rw [hcpu, hd]; rfl
    · rfl
  have h7 : e.seen.settleStations.seen.checkNight = e.seen.settleStations.seen := by
    unfold checkNight
    rw [hcpu, hn]
  have hr : e.react = e.seen.settleStations.seen.takeHead.setBlx Blx.assign := by
    simp only [react, rechoose_none h, judgeIfSettled_none h, c, d, h6, h7]
  unfold conclude
  rw [hr]
  simp [seen]

/-- Without a run, a paternoster neither at rest under fire nor with a settle to judge stays as the event's claims made it. -/
theorem conclude_stays {e : Ev} (h : e.cpu.run = none)
    (h1 : ¬ (e.pnc.state = .settling ∧ (e.cht.settled = true ∨ e.pnc.purpose = .fire))) (h2 : e.pnc.state ≠ .halted)
    (h3 : e.pnc.state ≠ .held) : e.conclude.pnc = e.pnc ∧ e.conclude.cht = e.cht := by
  have c : e.evaluateFire = e.seen := by simp [evaluateFire, when, h2, h3]
  have d : e.seen.settleStations.pnc = e.pnc := by simp [seen]
  have f : e.seen.settleStations.evaluateAgain = e.seen.settleStations.seen := by simp [evaluateAgain, when, h3, seen]
  have hr : e.react = e.seen.settleStations.seen.takeHead.setBlx Blx.assign := by
    rw [react_idle h, rechoose_none h1, judgeIfSettled_none h1, c, f]
  unfold conclude
  rw [hr]
  simp [seen]

/-- ESTOP, POWER_STOP or LOCKED_OUT: the states that only an order or the supply's return leaves (R40). -/
theorem requestSweep_stopped {e : Ev} {c : Bool}
    (h : e.pnc.state = .estop ∨ e.pnc.state = .powerStop ∨ e.pnc.state = .lockedOut) :
    e.requestSweep c = .refused .state := by
  rcases h with h | h | h <;> simp [requestSweep, sweepChecks, firstFailure, h]

theorem nightReady_stopped {e : Ev}
    (h : e.pnc.state = .estop ∨ e.pnc.state = .powerStop ∨ e.pnc.state = .lockedOut) : e.nightReady = false := by
  rcases h with h | h | h <;> simp [nightReady, h]

theorem takeStep_stopped {i : Nat} {due : Int} {a : Action} {e : Ev}
    (h : e.pnc.state = .estop ∨ e.pnc.state = .powerStop ∨ e.pnc.state = .lockedOut) :
    (e.takeStep i due a).pnc = e.pnc := by
  cases a
  · simp [takeStep]
  · simp [takeStep]
  · simp only [takeStep, takeSweep, requestSweep_stopped h]
    split <;> simp
  · simp [takeStep]
  · simp only [takeStep, takeNight, nightReady_stopped h]
    simp

theorem takeSteps_stopped (run : Run) (xs : List Nat) {e : Ev}
    (h : e.pnc.state = .estop ∨ e.pnc.state = .powerStop ∨ e.pnc.state = .lockedOut) :
    (e.forEach xs fun i e => match e.cpu.programme[i]? with
      | some st => e.takeStep i (run.due st) st.action
      | none => e).pnc = e.pnc := by
  unfold forEach
  induction xs generalizing e with
  | nil => rfl
  | cons x xs ih =>
    rw [List.foldl_cons]
    cases hp : e.cpu.programme[x]? with
    | none => simpa [hp] using ih h
    | some st =>
      have hx := takeStep_stopped (i := x) (due := run.due st) (a := st.action) h
      simp only [hp]
      exact (ih (by rw [hx]; exact h)).trans hx

theorem retakeDeferred_stopped {e : Ev}
    (h : e.pnc.state = .estop ∨ e.pnc.state = .powerStop ∨ e.pnc.state = .lockedOut) :
    e.retakeDeferred.pnc = e.pnc := by
  unfold retakeDeferred
  split
  · split
    · rfl
    · exact takeSteps_stopped _ _ h
  · rfl

/-- A paternoster in ESTOP, POWER_STOP or LOCKED_OUT stays there to the end of the event. -/
theorem conclude_stopped {e : Ev}
    (h : e.pnc.state = .estop ∨ e.pnc.state = .powerStop ∨ e.pnc.state = .lockedOut) :
    e.conclude.pnc = e.pnc ∧ e.conclude.cht = e.cht := by
  have h1 : ¬ (e.pnc.state = .settling ∧ (e.cht.settled = true ∨ e.pnc.purpose = .fire)) := by
    rcases h with h | h | h <;> simp [h]
  have h2 : e.pnc.state ≠ .halted ∧ e.pnc.state ≠ .held := by rcases h with h | h | h <;> simp [h]
  have c : e.evaluateFire = e.seen := by simp [evaluateFire, when, h2]
  have f : e.seen.settleStations.evaluateAgain = e.seen.settleStations.seen := by simp [evaluateAgain, when, h2, seen]
  have hp : e.seen.settleStations.seen.pnc = e.pnc := by simp [seen]
  have hc : e.seen.settleStations.seen.cht = e.cht := by simp [seen]
  have r1 := retakeDeferred_stopped (e := e.seen.settleStations.seen) (by rw [hp]; exact h)
  have hn : e.seen.settleStations.seen.retakeDeferred.checkNight = e.seen.settleStations.seen.retakeDeferred := by
    unfold checkNight
    rw [nightReady_stopped (by rw [r1, hp]; exact h)]
    split <;> simp
  have hr : e.react = e.seen.settleStations.seen.retakeDeferred.takeHead.setBlx Blx.assign := by
    simp only [react, rechoose_none h1, judgeIfSettled_none h1, c, f, hn]
  unfold conclude
  rw [hr]
  have r2 : e.seen.settleStations.seen.retakeDeferred.cht = e.seen.settleStations.seen.cht := by simp
  simp [r1]

/-- The settle an event brings to be judged: what follows is what follows the judgement (R48). -/
theorem react_judged {e : Ev} (h : e.pnc.state = .settling) (h1 : e.cht.settled = true)
    (h2 : e.pnc.purpose ≠ .fire ∨ e.pnc.target ≠ none)
    (c : ¬ (e.judge.pnc.state = .settling ∧ (e.judge.cht.settled = true ∨ e.judge.pnc.purpose = .fire))) :
    e.react = e.judge.react := by
  have a : e.rechoose = e := by
    simp only [rechoose, when]
    split
    · rename_i x
      simp at x
      rcases h2 with h2 | h2
      · exact absurd x.1.1.2 h2
      · exact absurd x.1.2 h2
    · rfl
  have b : e.judgeIfSettled = e.judge := by simp [judgeIfSettled, when, h, h1]
  unfold react
  rw [a, b, rechoose_none c, judgeIfSettled_none c]

/-! ## Emergency stops (R53) -/

theorem enterEstop_pnc (c : Cause) (e : Ev) :
    (enterEstop c e).pnc.state = .estop ∧ (enterEstop c e).pnc.causes = CauseSet.empty.add c ∧
      (enterEstop c e).pnc.target = none := by
  simp [enterEstop, restIn, setPnc, stamp]

theorem estop_enters {c : Cause} {e : Ev} (h1 : e.pnc.state ≠ .estop) (h2 : e.pnc.state ≠ .lockedOut)
    (h3 : e.pnc.state ≠ .powerStop) : estop c e = e.enterEstop c := by
  unfold estop
  cases h : e.pnc.state <;> simp_all

end Ev

/-- A field event that comes to an emergency stop. -/
theorem event_estops {v : Env} {s : State} {g : Ev → Ev} {c : Cause} {e : Ev} (hg : g (Ev.begin v s.toStore) = e.estop c)
    (h1 : e.pnc.state ≠ .estop) (h2 : e.pnc.state ≠ .lockedOut) (h3 : e.pnc.state ≠ .powerStop) :
    (event v g s).pnc.state = .estop ∧ (event v g s).pnc.causes = CauseSet.empty.add c ∧
      (event v g s).pnc.target = none ∧ (event v g s).out.demand = .off := by
  rw [event_demand, event_pnc, hg, Ev.estop_enters h1 h2 h3]
  obtain ⟨a, b, d⟩ := Ev.enterEstop_pnc c e
  rw [(Ev.conclude_stopped (.inl a)).1]
  exact ⟨a, b, d, by rw [a]; rfl⟩

/-! ## The settle judged (R48, R49) -/

/-- The settle wait's end, as the event begins with it (R28). -/
def State.settledEv (s : State) : Ev := { Ev.begin s.toEnv s.toStore with cht := s.settledCht }

/-- The settle wait's end sets the settled flag and ends the wait (R28). -/
theorem settleOut_begin {s : State} (h : s.cht.settleWait ≠ none) :
    (Ev.begin s.toEnv s.toStore).settleOut = s.settledEv := by
  have : (Ev.begin s.toEnv s.toStore).cht.settleWait.isSome = true := by
    simpa [Ev.begin, Option.isSome_iff_ne_none] using h
  simp only [Ev.settleOut, Ev.when, this, if_true]
  rfl

/-- The settle wait's end in a store that the judgement of the settle leaves calm (R28, R48). -/
theorem settle_judged {s : State} (w : s.cht.settleWait ≠ none) (h : s.pnc.state = .settling)
    (h2 : s.pnc.purpose ≠ .fire ∨ s.pnc.target ≠ none) (c : s.settledEv.judge.toStore.Calm) :
    exec .settleWaitExpiry s = .next (s.holding s.settledEv.judge.toStore
      (s.lnk.takeAll (s.settledEv.judge.offers ++ s.settledEv.judge.pnOffers ++ s.settledEv.judge.modeOffers))) := by
  show Host.Outcome.next (event s.toEnv Ev.settleOut s) = _
  unfold event Ev.conclude
  rw [settleOut_begin w, Ev.react_judged h rfl h2 c.toStill.noSettle]
  exact congrArg _ (finish_calm s s.lnk s.toEnv c)

/-- With no target the chain is at rest where it stands (R48). -/
theorem judge_bare {s : State} (h : s.pnc.target = none) : s.settledEv.judge = s.settledEv.settledBare := by
  have : s.settledEv.pnc.target = none := h
  simp [Ev.judge, this]

/-- Within the level tolerance of its target the stop has come to its rest (R48). -/
theorem judge_hit {s : State} (h : s.AtTarget) : s.settledEv.judge = s.settledEv.settledHit := by
  obtain ⟨p, t, h1, h2, h3⟩ := h
  have a : s.settledEv.pnc.target = some t := h2
  have b : s.settledEv.cht.position = some p := h1
  have c : circDist s.settledEv.cht.settings.loopLength p t ≤ s.settledEv.cht.settings.levelTol := h3
  simp [Ev.judge, a, b, c]

/-- Farther off the target is missed (R48). -/
theorem judge_miss {s : State} (h : s.OffTarget) : s.settledEv.judge = s.settledEv.settledMiss := by
  obtain ⟨t, h1, h2⟩ := h
  have a : s.settledEv.pnc.target = some t := h1
  simp only [Ev.judge, a]
  split
  · rename_i p hp
    have : ¬ circDist s.settledEv.cht.settings.loopLength p t ≤ s.settledEv.cht.settings.levelTol := by
      have := h2 p hp
      exact Nat.not_le.mpr this
    simp [this]
  · rfl

/-- A first miss that no creep follows is judged as a settle with no target (R49). -/
theorem missed_bare {s : State} (h : s.MissedForGood) (f : s.pnc.purpose ≠ .fire) :
    s.settledEv.judge = s.settledEv.settledBare := by
  obtain ⟨o, m, g⟩ := h
  rw [judge_miss o]
  have m' : s.settledEv.pnc.missCount = 0 := m
  unfold Ev.settledMiss
  simp only [m', ne_eq, not_true_eq_false, if_false]
  rcases g with g | g
  · have : s.settledEv.gateOpen = false := g
    simp [this]
  · split
    · unfold Ev.missAgain
      have : (s.settledEv.cht.position.bind s.settledEv.retarget) = none := by
        rcases g with g | g
        · have : s.settledEv.cht.position = none := g
          simp [this]
        · cases hp : s.settledEv.cht.position with
          | none => rfl
          | some p =>
            have e : s.settledEv.cht.clearList = [] := g
            simp only [Option.bind_some]
            unfold Store.retarget
            cases hq : s.settledEv.pnc.purpose with
            | normal => simp [Store.nearest, e, argMin]
            | sweep => simpa using Store.sweepRetarget_none.mpr e
            | fire => exact absurd hq f
      simp [this]
    · rfl

/-- A first miss with the gate open creeps to a target chosen anew (R49). -/
theorem missed_again {s : State} {p g : Nat} (o : s.OffTarget) (m : s.pnc.missCount = 0) (go : s.gateOpen = true)
    (hp : s.cht.position = some p) (hr : s.retarget p = some g) :
    s.settledEv.judge = { s.settledEv with pnc := s.reaimedAt g } := by
  rw [judge_miss o]
  have m' : s.settledEv.pnc.missCount = 0 := m
  have g' : s.settledEv.gateOpen = true := go
  have : (s.settledEv.cht.position.bind s.settledEv.retarget) = some g := by
    have : s.settledEv.cht.position = some p := hp
    rw [this]; exact hr
  simp only [Ev.settledMiss, m', ne_eq, not_true_eq_false, if_false, g', if_true, Ev.missAgain, this]
  rfl

/-- A settle judged in a calm store leaves it calm where it ends in another state. -/
theorem calm_settled {s : State} (c : s.toStore.Calm) {e : Ev} (h : s.pnc.state = .settling)
    (hf : e.fzu = s.fzu) (hs : e.pnc.state ≠ .settling) (hc : e.shc = s.shc) (hu : e.cpu = s.cpu) (ha : e.anp = s.anp)
    (hb : e.blx = s.blx) : e.toStore.Calm := by
  refine Store.Calm.moved c (by rw [hf]; exact c.noFire) (fun x => hs x.1) hc ?_ hu ha hb
  intro _
  simp [Store.demandOff, Store.demand, h, PnState.demand]

/-! ## Zones (R96) -/

@[simp] theorem put_getElem_self {α : Type} {n : Nat} (v : Vector α n) (i : Fin n) : put v i v[i] = v := by
  simp [put]

theorem Fzu.withZone_same {f : Fzu} {z : Fin 6} {now : Nat} (h : f.fire = anyOf f.zones fun x => x.state != .quiet) :
    f.withZone z f.zones[z] now = f := by
  unfold withZone
  rw [put_getElem_self]
  simp [← h]

namespace Ev

theorem writeZone_fzu (z : Fin 6) (x : Zone) (e : Ev) : (e.writeZone z x).fzu = e.fzu.withZone z x e.tmb.ownTime := by
  unfold writeZone Fzu.withZone
  dsimp only
  have ha : (setFzu (fun f => { f with zones := put f.zones z x }) e).anyInFire =
      anyOf (put e.fzu.zones z x) fun x => x.state != .quiet := rfl
  rw [ha]
  split
  · rename_i h
    have h' : (anyOf (put e.fzu.zones z x) fun x => x.state != .quiet) = e.fzu.fire := h
    simp [h']
  · rename_i h
    have h' : ¬ (anyOf (put e.fzu.zones z x) fun x => x.state != .quiet) = e.fzu.fire := h
    simp [h', deadlineFor, now]

/-- A change of a zone, as the Fire Zone Unit holds it. -/
theorem changeZone_fzu {z : Fin 6} {x : Zone} {c : ZoneCause} {e : Ev} (h : e.fzu.fire = e.anyInFire) :
    (e.changeZone z x c).fzu = e.fzu.withZone z x e.tmb.ownTime := by
  unfold changeZone
  dsimp only
  split
  · rename_i hx
    subst hx
    rw [Fzu.withZone_same h]
  · rw [← writeZone_fzu]
    split <;> simp
    split <;> simp

end Ev

end Sys2Proof.Machine
end

