-- ==== Sys2Proof/Tests/Slice0.lean ====
section
/-! SUPPORT. The writer's own tests: WellFormed refusing ill-formed commands, small checks of the operations, and for each
statement with hypotheses one theorem that shows states and operands meeting them, clause by clause. -/
set_option linter.unusedVariables false
open Sys2Proof Sys2Proof.Machine
namespace Sys2Proof.Tests

/-! ## States to test on -/

def head : OrderHead := ⟨false, 7⟩
def holding : OrderHead := ⟨true, 7⟩

/-- A commissioned store, trading by day, its paternoster halted at a sill and its outbox empty. -/
def shop : State :=
  { State.reset with
    msu := { Msu.reset with mode := .trading, key := true }
    cht := { Cht.reset with settings := ⟨600, 2, 4, 8, 6, 30⟩, landings := put Cht.reset.landings 0 ⟨true, [100, 400], [100, 400]⟩, clearList := [⟨100, 1⟩, ⟨400, 1⟩], position := some 100 }
    lines := { Lines.reset with drvReady := true, commission := true }
    lnk := { Lnk.reset with outbox := [] } }

def running : State := { shop with pnc.state := .running, out.demand := .service }
def creeping : State := { shop with pnc.state := .creeping, pnc.target := some 400, out.demand := .creep }
def estop : State := { shop with pnc.state := .estop, pnc.causes.host := true }

/-- A sweep that the programme claimed, its step WAITING. -/
def sweeping : State :=
  { shop with
    pnc.state := .sweeping, pnc.purpose := .sweep, pnc.sweepClaimed := true, out.demand := .service, msu.mode := .closing
    cpu := { Cpu.reset with programme := [⟨0, .sweep⟩], run := some ⟨.order, instantOf ⟨2024, 5, 6⟩ 480, 1, [⟨.waiting, .none, []⟩]⟩ } }

/-- A stop aimed at 400, its settle wait running, at `p`. -/
def settlingAt (purpose : Purpose) (p : Nat) : State :=
  { shop with cht.position := some p, cht.settleWait := some 50, pnc.state := .settling, pnc.purpose := purpose, pnc.target := some 400 }

/-- A sweep of the programme settling at the edge of its target's tolerance. -/
def sweepSettling : State := { settlingAt .sweep 396 with msu.mode := .closing, pnc.sweepClaimed := true, cpu := sweeping.cpu }

/-- One landing with 17 positions 20 steps apart on both sides. -/
def manyEntries : Cht :=
  { Cht.reset with
    settings := ⟨600, 17, 4, 8, 6, 30⟩
    landings := put Cht.reset.landings 0 ⟨true, (List.range 17).map fun i => 20 + 20 * i, (List.range 17).map fun i => 20 + 20 * i⟩ }

def door (kind : ShutterKind) (state : ShutterState) : Shutter :=
  ⟨kind, none, none, false, false, 30, 30, state, 0, 0, none, false, false, .stopped, none, none, none, false, false, false⟩

def withDoor (sh : Shutter) (s : State) : State := { s with shc := ⟨put s.shc.stations 0 (some sh)⟩ }
def withZone (x : Zone) (s : State) : State := { s with fzu := s.fzu.withZone 0 x 0 }

/-- Zone 0 in fire, declared by order. -/
def fireShop : State := withZone ⟨true, 1, .alarmed, true⟩ shop

/-- The same under fire, a fire shutter waiting for landing `l`; a chain at rest at 250 serves landing 1. -/
def fireSettling (l : Fin 8) (p : Nat) : State :=
  { settlingAt .fire p with
    cht.clearList := [⟨100, 1⟩, ⟨250, 2⟩, ⟨400, 1⟩]
    fzu := fireShop.fzu
    shc := ⟨put shop.shc.stations 0 (some { door .fire .releaseWait with landing := some l })⟩ }

def ordinary (wantAnswer : Bool) (cls : CallClass) (escalate : Bool) : Call :=
  ⟨5, [2], 1, cls, 1, 1, wantAnswer, escalate, .host, false, false, 0, 0⟩

def withRinger (c : Call) (state : RingerState) (s : State) : State :=
  { s with blx.ringers := put s.blx.ringers 0 ⟨state, some (.ordinary c), c.lines, ⟨c.code, 0, 0, true⟩, some 100⟩ }

/-- Script 0 plays slot 1, loaded whole; the player is at its first item. -/
def playing (state : PlayerState) : State :=
  { shop with
    phs.slots := put (put Phs.reset.slots 0 ⟨2, 5, [0, 1], some 5⟩) 1 ⟨2, 5, [0, 1], some 5⟩
    anp := { Anp.reset with playing := some ⟨1, 0, 1, .routine, .host, false⟩, state := state, script := ⟨[⟨1, 2, 10⟩], false, 1⟩, cursor := ⟨true, 0, 0, 0⟩, sounding := some 1, scripts := put Anp.reset.scripts 0 ⟨[⟨1, 2, 10⟩], false, 1⟩ } }

/-- A date with a clock: 2024-05-06 at the last hundredth before 08:00. -/
def clocked : State :=
  { shop with tmb.timeUnset := false, tmb.cal := ⟨⟨2024, 5, 6⟩, 7, 59, 59, 99⟩ }

def eight : Int := instantOf ⟨2024, 5, 6⟩ 480

/-- A closing run whose step 0 falls due at 08:00. -/
def closing (action : Action) : State :=
  { clocked with
    msu.mode := .closing
    cpu := { Cpu.reset with programme := [⟨0, action⟩], run := some ⟨.order, eight, 0, [⟨.pending, .none, []⟩]⟩ } }

/-! ## Checks of the hypotheses -/

def stillB (st : Store) : Bool :=
  !st.fzu.fire && !(decide (st.pnc.state = .settling) && (st.cht.settled || decide (st.pnc.purpose = .fire))) &&
    (List.finRange 16).all (fun i => st.shc.stations[i].all fun sh =>
      decide (sh.state ≠ .releaseWait) && (!sh.retryWait || !st.demandOff)) &&
    (st.cpu.stepsWhere fun _ o => o == .deferred).isEmpty &&
    (st.cpu.stepsWhere fun a o => a == .night && o == .waiting).isEmpty

theorem calm_of {st : Store} (h : stillB st = true)
    (q : st.anp.queue = [] ∨ st.anp.state ≠ .idle ∨ st.anp.fire = true) (b : st.blx.assign = st.blx) : st.Calm := by
  simp only [stillB, Bool.and_eq_true, Bool.not_eq_true', List.all_eq_true, List.isEmpty_iff] at h
  obtain ⟨⟨⟨⟨h1, h2⟩, h3⟩, h4⟩, h5⟩ := h
  refine ⟨⟨h1, ?_, ?_, h4, h5⟩, q, b⟩
  · rintro ⟨a, c⟩
    rcases c with c | c <;> simp [a, c] at h2
  · intro i sh e
    have := h3 i (List.mem_finRange i)
    rw [e] at this
    simp at this
    exact ⟨this.1, fun r => by simpa [r] using this.2⟩

theorem all_of {α : Type} {o : Option α} {P : α → Prop} [DecidablePred P] (h : (o.all fun x => decide (P x)) = true) :
    ∀ x, o = some x → P x := by
  rintro x rfl
  simpa using h

theorem links_of {s : State} (h : ((List.finRange 16).all fun i => s.shc.stations[i].all fun sh => sh.landing.all fun l =>
    s.cht.landings[l].present) = true) : s.LinksPresent := by
  intro i sh l hs hl
  have := (List.all_eq_true.mp h) i (List.mem_finRange i)
  rw [hs] at this
  simpa [hl] using this

theorem ringers_of {s : State} {n : Nat} {r : Fin 3} (h : ((List.finRange 3).all fun r' => match s.blx.ringers[r'].held with
    | some (.ordinary x) => decide (x.number = n → r' = r)
    | _ => true) = true) :
    ∀ (r' : Fin 3) (x : Call), s.blx.ringers[r'].held = some (.ordinary x) → x.number = n → r' = r := by
  intro r' x e
  have := (List.all_eq_true.mp h) r' (List.mem_finRange r')
  rw [e] at this
  exact fun n => by simpa [n] using this

theorem held_of {b : Blx} {p : Post} {r : Fin 3} (h : ((List.finRange 3).all fun r' => match b.ringers[r'].held with
    | some (.ordinary x) => decide (x.code = p.code → x.lines = p.lines → x.cls = p.cls → r' = r)
    | _ => true) = true) :
    ∀ (r' : Fin 3) (x : Call), b.ringers[r'].held = some (.ordinary x) → x.code = p.code → x.lines = p.lines →
      x.cls = p.cls → r' = r := by
  intro r' x e
  have := (List.all_eq_true.mp h) r' (List.mem_finRange r')
  rw [e] at this
  exact of_decide_eq_true this

theorem due_of {s : State} {c : CalTime} (h : (s.cpu.run.all fun r => s.cpu.programme[r.cursor]?.all fun st =>
    decide (c.abs < r.due st)) = true) :
    ∀ r st, s.cpu.run = some r → s.cpu.programme[r.cursor]? = some st → c.abs < r.due st := by
  intro r st e1 e2
  rw [e1] at h
  simpa [e2] using h

theorem passes_of {s : State} {i rep j : Nat} (h : ((List.range j).all fun m => decide (i ≤ m) → s.anp.script.items[m]?.all
    fun x => decide (x.repeats ≤ (if m = i then rep else 0)) || !s.phs.ready (slotOf x.slot)) = true) :
    ∀ m, i ≤ m → m < j → s.PassesOver i rep m := by
  intro m hm hj x e
  have := (List.all_eq_true.mp h) m (List.mem_range.mpr hj)
  simpa [hm, e] using this

def nextOf : Host.Outcome State Fault Refusal → State
  | .next t => t
  | _ => State.reset

def isNext : Host.Outcome State Fault Refusal → Bool
  | .next _ => true
  | _ => false

theorem next_of {o : Host.Outcome State Fault Refusal} (h : isNext o = true) : o = .next (nextOf o) := by
  cases o <;> simp_all [isNext, nextOf]

def mergedBlx (b : Blx) (p : Post) : Blx := ((b.merge p).map Prod.snd).getD b

/-! ## Ill-formed commands are refused by WellFormed -/

theorem test_wf_known_code_is_no_unknown_order : (Instr.unknownOrder head 0x01 []).wf = false := by decide
theorem test_wf_unknown_order_body_fits : (Instr.unknownOrder head 0x0F (List.replicate 248 0)).wf = false := by decide +kernel
theorem test_wf_order_body_fits : (Instr.phraseLoad head (List.replicate 248 0)).wf = false := by decide +kernel
theorem test_wf_frame_fits : (Instr.frameReceived (List.replicate 255 0)).wf = false := by decide +kernel
theorem test_wf_length_in_range : (Instr.lengthOutOfRange 3).wf = false := by decide
theorem test_wf_length_at_its_end : (Instr.lengthOutOfRange 250).wf = false := by decide

/-- The checks above are done before those below begin, so that few wait for the kernel at once. -/
def pause1 : {n : Nat // n = 1} := ⟨1, by decide +kernel⟩

theorem test_wf_well_formed : (Instr.unknownOrder head 0x0F []).wf = true ∧ (Instr.lengthOutOfRange 251).wf = true ∧
    (Instr.status head (List.replicate 247 0)).wf = true := by decide +kernel

/-! ## Small checks -/

def ascii (s : String) : List Byte := s.toList.map fun c => BitVec.ofNat 8 c.toNat
def after (c : Instr) (s : State) : State := nextOf (step { s with pending := [c] })

/-- The check value of CRC-16 with 0x1021 and 0xFFFF (R134). -/
theorem test_crc : crc16 (ascii "123456789") = 0x29B1 := by decide +kernel

/-- Power-on on the reset state's own lines gives the reset state. -/
theorem test_power_on : exec .powerOn State.reset = .next State.reset := by
  rw [next_of (o := exec .powerOn State.reset) (by decide +kernel)]
  exact congrArg _ (of_decide_eq_true (by decide +kernel))

/-- With nothing waiting the part idles. -/
theorem test_idle : step State.reset = .next State.reset := rfl

theorem test_status_answer : (after (.status head []) shop).lnk.outbox =
    [.answer 7 0x01 .done .none [1, 0, 0, 0, 0, 0, 1, 0, 0, 0, 0, 0]] := by decide +kernel

theorem test_leap_day : (CalTime.tick ⟨⟨2024, 2, 28⟩, 23, 59, 59, 99⟩) = ⟨⟨2024, 2, 29⟩, 0, 0, 0, 0⟩ ∧
    (CalTime.tick ⟨⟨2023, 2, 28⟩, 23, 59, 59, 99⟩) = ⟨⟨2023, 3, 1⟩, 0, 0, 0, 0⟩ := by decide +kernel

/-- As `pause1`. -/
def pause2 : {n : Nat // n = 2} := ⟨2, by decide +kernel⟩

theorem test_derive_clear_list : shop.cht.derive = [⟨100, 1⟩, ⟨400, 1⟩] := by decide +kernel

theorem test_encoder_wraps : (after .encoderStep { shop with cht.position := some 599 }).cht.position = some 0 := by
  decide +kernel

theorem test_fire_stops_service : (after (.zoneInActive 0) { running with fzu.zones := put Fzu.reset.zones 0 ⟨true, 1, .quiet, false⟩ }).pnc.purpose = .fire ∧
    (after (.zoneInActive 0) running).out.demand ≠ .service := by decide +kernel

theorem test_evac_rings : (after (.zoneInActive 0) { shop with fzu.zones := put Fzu.reset.zones 0 ⟨true, 1, .quiet, false⟩ }).blx.ringers[(0 : Fin 3)].held = some .evac := by
  decide +kernel

theorem test_unlinked_fire_shutter_falls : ((after (.zoneInActive 0) (withDoor { door .fire .opened with zone := some 0 } shop)).shc.stations[(0 : Fin 16)].map Shutter.state) = some .descending := by
  decide +kernel

theorem test_three_start_faults_lock_out : (after .startWindowExpiry { shop with pnc.state := .starting, pnc.startTimer := some 0, pnc.startFaults := 2 }).pnc.state = .lockedOut := by
  decide +kernel

/-- As `pause1`. -/
def pause3 : {n : Nat // n = 3} := ⟨3, by decide +kernel⟩

theorem test_cancelled_run_drops_its_steps : ((after (.closingCancel head []) (closing .night)).cpu.prev.map fun p => p.1.steps) =
    some [⟨.dropped, .none, []⟩] := by decide +kernel

/-- A TIME-SET over a NIGHT step and a later start instant takes both in turn: the wake latch brings the store back from
the first run's night, and the start instant then begins another run (R155). -/
theorem test_instants_in_turn : (fun t : State => (t.msu.mode, t.cpu.prev.map fun p => p.1.startCause))
    (after (.timeSet head [7, 232, 5, 6, 9, 30, 0, 0])
      { closing .night with tmb.weekly := Vector.replicate 7 (.times 300 540), pnc.state := .nightLock, msu.wake := 1 }) =
    (.night, some .auto) := by decide +kernel

theorem test_opening_wakes_nothing_by_day : (after .openingTimeEvent shop).msu.mode = .trading := by decide +kernel

theorem test_bad_frame_is_discarded : after (.frameReceived [0xA5, 3, 0x10, 7, 1, 0, 0]) shop = shop := by decide +kernel

theorem test_status_frame : frameBytes 0x10 7 0x01 [] = some (0xA5 :: 3 :: 0x10 :: 7 :: 1 :: Enc.word (crc16 [3, 0x10, 7, 1]).toNat) := by
  decide +kernel

/-- No row of the table spells a command as a word. -/
theorem test_no_words (n w : Nat) : decodeTableWord n w = none := rfl

/-- As `pause1`. -/
def pause14 : {n : Nat // n = 14} := ⟨14, by decide +kernel⟩

/-- The reason an order is refused with on an empty outbox. -/
def refusal (c : Instr) (s : State) : Option Reason :=
  match (after c s).lnk.outbox with
  | [.answer _ _ .refused r _] => some r
  | _ => none

def shut (s : State) : State := withDoor { door .grille .closed with landing := some 0 } s

/-- Each order's checks in the order of its table, each state failing all from one check on (R34, R50). -/
theorem test_chain_refusals :
    (let a := { shop with lines.drvReady := false }
     let b := shut a
     let c := { b with pnc.state := .held }
     let d := { c with cht.landings := Cht.reset.landings }
     let e := { d with msu.source := .reserve }
     let f := withZone ⟨true, 1, .alarmed, true⟩ e
     let g := { f with msu.mode := .night }
     let h := { g with cht.survey := some .start }
     [shop, a, b, c, d, e, f, g, h, { h with msu.key := false }].map (refusal (.survey head []))) =
      [none, some .notReady, some .state, some .state, some .range, some .power, some .fire, some .mode, some .busy,
        some .locked] ∧
    (let a := { shop with lines.drvFault := true }
     let b := shut a
     let c := { b with lines.drvReady := false }
     let d := { c with cht.position := none }
     let e := { d with msu.source := .reserve }
     let f := withZone ⟨true, 1, .alarmed, true⟩ e
     let g := { f with msu.mode := .setup }
     [shop, a, b, c, d, e, f, g, { g with pnc.state := .settling }, { g with pnc.state := .nightLock }].map
       (refusal (.pnSweep head []))) =
      [none, some .state, some .state, some .notReady, some .state, some .power, some .fire, some .mode, some .state,
        some .mode] := by decide +kernel

/-- The checks of a post and of an announcement (R111, R141). -/
theorem test_post_refusals :
    (let full : State := { shop with blx.queue := List.replicate 16 (ordinary false .watch false) }
     let poor : State := { full with msu.source := .reserve }
     let night : State := { poor with msu.mode := .night }
     [(full, 1), (poor, 1), (night, 1), (night, 0), (night, 10)].map fun x =>
       refusal (.callPost head [3, 0, 0, 0, 0, 1, 3, x.2, 0]) x.1) =
      [some .full, some .power, some .mode, some .range, some .range] ∧
    ([StoreMode.setup, .trading, .closing, .night].map fun m => [0, 1, 2, 3].map fun k =>
      (refusal (.callPost head [3, 0, 0, 0, 0, 1, k, 1, 0]) { shop with msu.mode := m }).isNone) =
      [[true, false, false, true], [true, false, true, true], [true, true, true, true], [true, true, false, false]] ∧
    (let a := { playing .sounding with anp.queue := List.replicate 6 ⟨2, 0, 1, .routine, .host, false⟩ }
     let b := withZone ⟨true, 1, .alarmed, true⟩ a
     let c := { b with msu.source := .reserve }
     let d := { c with msu.mode := .night }
     let e := { d with anp.scripts := put d.anp.scripts 0 ⟨[], false, 1⟩ }
     let f := { e with anp.scripts := put e.anp.scripts 0 ⟨[], false, 0⟩ }
     [playing .sounding, a, b, c, d, e, f].map (refusal (.announce head [0, 1, 0]))) =
      [none, some .full, some .fire, some .power, some .mode, some .state, some .range] := by decide +kernel

/-- PN-STOP ends a claimed sweep, and its step with it (R46, R51, R169). -/
theorem test_stop_ends_a_sweep : (fun t : State => (t.pnc.state, t.pnc.target, t.cpu.run.map Run.steps))
    (after (.pnStop head []) sweeping) = (.creeping, some 400, some [⟨.failed, .cancelled, []⟩]) := by decide +kernel

/-- The walk of R31 stops at 16 entries. -/
theorem test_derive_stops_at_sixteen : manyEntries.derive.length = 16 ∧
    (340 ∈ manyEntries.derive.map ClearEntry.pos) = False := by decide +kernel

/-- A warm restart in a fire (R65, R88, R105, R126, R151): the linked shutter of zone 0 waits, its landing makes the chain
creep for the index, the open-on-fire grille rises, a CLOSED grille keeps NOT_PROVEN (log 55), and bells and player take
up the fire. -/
theorem test_warm_restart_in_fire :
    (let grille := { door .grille .closed with faults := FaultKind.notProven }
     let s := withZone ⟨true, 1, .standing, false⟩ { shop with
       shc.stations := put (put (put Shc.reset.stations 0 (some { door .fire .opened with zone := some 0, landing := some 0 })) 1
         (some { grille with zone := some 0, openOnFire := true })) 2 (some grille)
       lines.mainsOk := true, lines.openLim := 1, lines.closedLim := 6, out.outA := 1 }
     let t := after (.restart head [2]) s
     ([0, 1, 2].map fun i => t.shc.stations[(Fin.ofNat 16 i)].map fun x => (x.state, x.faults)) =
        [some (.releaseWait, 0), some (.raising, FaultKind.notProven), some (.closed, FaultKind.notProven)] ∧
       t.pnc = s.warmPnc t ∧ t.pnc.state = .creeping ∧ t.fzu.deadline = .running 1000 ∧
       (t.blx.ringers.toList.map Ringer.held) = [some .evac, some .alert, none] ∧ t.anp.state = .preparing) := by
  decide +kernel

/-- As `pause1`. -/
def pause4 : {n : Nat // n = 4} := ⟨4, by decide +kernel⟩

/-- The storage reads back what was written, and stays canonical (R127). -/
theorem test_storage : Memory.wf (Memory.write [] 5 9) = true ∧ Memory.read (Memory.write [] 5 9) 5 = 9 ∧
    Memory.write (Memory.write [] 5 9) 5 0 = [] := by decide +kernel

/-! ## A witness for each statement's hypotheses -/

theorem witness_StepRunsFrontCommand :
    ∃ s : State, s.pending = [] :=
  ⟨shop, by decide +kernel⟩

theorem witness_OrdersAreTakenKeptOrTurnedAway :
    (∃ (c : Instr) (h : OrderHead) (code : Byte) (body : List Byte) (s : State), c.order = some (h, code, body) ∧ s.lnk.rxBuf.length < 4 ∧ 27 < s.lnk.outbox.length + s.lnk.held.length) ∧
    (∃ (c : Instr) (h : OrderHead) (code : Byte) (body : List Byte) (s : State), c.order = some (h, code, body) ∧ 4 ≤ s.lnk.rxBuf.length) ∧
    (∃ (h : OrderHead) (code : Byte) (body : List Byte) (s : State), s.Ready ∧ isOrderCode code = false) ∧
    (∃ (c : Instr) (h : OrderHead) (code : Byte) (body : List Byte) (s : State), c.order = some (h, code, body) ∧ isOrderCode code = true ∧ isLongOperation code = true ∧ h.held = true ∧ s.Ready ∧ 4 ≤ s.lnk.held.length) :=
  ⟨⟨(.status head []), head, 1, [], { shop with lnk.outbox := List.replicate 28 (.notice (.power .mains false)) }, by decide +kernel⟩,
    ⟨(.status head []), head, 1, [], { shop with lnk.rxBuf := List.replicate 4 ⟨false, 1, 1, []⟩ }, by decide +kernel⟩,
    ⟨head, 9, [], shop, by decide +kernel⟩,
    ⟨(.survey holding []), holding, 0x15, [], { shop with lnk.held := List.replicate 4 ⟨1, 0x15, .survey⟩ }, by decide +kernel⟩⟩

theorem witness_RefusedOrderChangesNothing :
    ∃ (c : Instr) (h : OrderHead) (code : Byte) (body : List Byte) (s t : State) (tag code' : Byte) (r : Reason) (data : List Byte), c.order = some (h, code, body) ∧ s.Ready ∧ exec c s = .next t ∧ t.lnk.outbox[s.lnk.outbox.length]? = some (.answer tag code' .refused r data) :=
  ⟨(.status head [1]), head, 1, [1], shop, (nextOf (exec (.status head [1]) shop)), 7, 1, .form, [], (by decide +kernel), (by decide +kernel), (next_of (by decide +kernel)), by decide +kernel⟩

theorem witness_FramesOnTheLine :
    (∃ (c : Instr) (h : OrderHead) (code : Byte) (body : List Byte) (s : State), c.order = some (h, code, body) ∧ body.length ≤ 247 ∧ s.lnk.reception = none) ∧
    (∃ s : State, ∃ len : Byte, (len.toNat < 3 ∨ 250 < len.toNat) ∧ (s.lnk.reception = none ∨ s.lnk.reception = some [0xA5])) ∧
    (∃ s : State, ∃ (n : Byte) (rest : List Byte), s.lnk.reception = none ∧ 3 ≤ n.toNat ∧ n.toNat ≤ 250 ∧ rest.length = n.toNat + 2 ∧ rest.drop n.toNat ≠ Enc.word (crc16 (n :: rest.take n.toNat)).toNat) :=
  ⟨⟨(.status head []), head, 1, [], shop, by decide +kernel⟩,
    ⟨{ shop with lnk.reception := some [0xA5] }, 251, by decide +kernel⟩,
    ⟨shop, 3, [0x10, 7, 1, 0, 0], by decide +kernel⟩⟩

theorem witness_OutboxAndItsNotices :
    (∃ (f : OutFrame) (rest : List OutFrame) (s : State), s.lnk.outbox = f :: rest ∧ s.lnk.rxBuf = []) ∧
    (∃ (f : OutFrame) (rest : List OutFrame) (s : State), s.lnk.outbox = f :: rest ∧ ∃ o, s.lnk.rxBuf = [o] ∧ rest.length + s.lnk.held.length ≤ 27) :=
  ⟨⟨(.notice (.power .mains false)), [], { shop with lnk.outbox := [(.notice (.power .mains false))] }, by decide +kernel⟩,
    ⟨(.notice (.power .mains false)), [], { shop with lnk.outbox := [(.notice (.power .mains false))], lnk.rxBuf := [⟨false, 1, 1, []⟩] }, (by decide +kernel), ⟨false, 1, 1, []⟩, by decide +kernel⟩⟩

/-- As `pause1`. -/
def pause5 : {n : Nat // n = 5} := ⟨5, by decide +kernel⟩

theorem witness_StatusReportsAndClears :
    (∃ (h : OrderHead) (body : List Byte) (s : State), s.Ready ∧ body = []) ∧
    (∃ (h : OrderHead) (body : List Byte) (s : State), s.Ready ∧ body ≠ []) :=
  ⟨⟨head, [], shop, by decide +kernel⟩,
    ⟨head, [1], shop, by decide +kernel⟩⟩

theorem witness_StepKeepsLinkBounds :
    ∃ s t : State, s.LinkBounded ∧ step s = .next t :=
  ⟨{ shop with pending := [.battLowSet] }, (nextOf (step { shop with pending := [.battLowSet] })), (by decide +kernel), (next_of (by decide +kernel))⟩

theorem witness_StepKeepsOutputsFollowing :
    ∃ s t : State, s.OutputsFollow ∧ step s = .next t :=
  ⟨{ shop with pending := [.battLowSet] }, (nextOf (step { shop with pending := [.battLowSet] })), (by decide +kernel), (next_of (by decide +kernel))⟩

theorem witness_StepKeepsPhrasesFit :
    ∃ s t : State, s.PhrasesFit ∧ step s = .next t :=
  ⟨{ shop with pending := [.battLowSet] }, (nextOf (step { shop with pending := [.battLowSet] })), (by decide +kernel), (next_of (by decide +kernel))⟩

theorem witness_StepKeepsRunIffClosing :
    ∃ s t : State, s.RunIffClosing ∧ step s = .next t :=
  ⟨{ closing .night with pending := [.battLowSet] }, (nextOf (step { closing .night with pending := [.battLowSet] })), (by decide +kernel), (next_of (by decide +kernel))⟩

theorem witness_StepKeepsFireAndZones :
    (∃ s t : State, s.FireFollowsZones ∧ step s = .next t) ∧
    (∃ s t : State, s.ZonesSound ∧ step s = .next t) ∧
    (∃ s t : State, s.FireStopsService ∧ step s = .next t) :=
  ⟨⟨{ fireShop with pending := [.battLowSet] }, (nextOf (step { fireShop with pending := [.battLowSet] })), (by decide +kernel), (next_of (by decide +kernel))⟩,
    ⟨{ fireShop with pending := [.battLowSet] }, (nextOf (step { fireShop with pending := [.battLowSet] })), (by decide +kernel), (next_of (by decide +kernel))⟩,
    ⟨{ fireShop with pending := [.battLowSet] }, (nextOf (step { fireShop with pending := [.battLowSet] })), (by decide +kernel), (next_of (by decide +kernel))⟩⟩

/-- As `pause1`. -/
def pause6 : {n : Nat // n = 6} := ⟨6, by decide +kernel⟩

theorem witness_CommenceChecksAndEntersTrading :
    (∃ (h : OrderHead) (s : State), s.Ready ∧ s.msu.mode ≠ .setup) ∧
    (∃ (h : OrderHead) (s : State), s.Ready ∧ s.msu.mode = .setup ∧ s.cht.settings.loopLength = 0) ∧
    (∃ (h : OrderHead) (s : State), s.Ready ∧ s.msu.mode = .setup ∧ s.cht.settings.loopLength ≠ 0 ∧ s.cht.settings.cars = 0) ∧
    (∃ (h : OrderHead) (s : State), s.Ready ∧ s.msu.mode = .setup ∧ s.cht.settings.loopLength ≠ 0 ∧ s.cht.settings.cars ≠ 0 ∧ (¬ s.LinksPresent)) ∧
    (∃ (h : OrderHead) (s : State), s.Ready ∧ s.msu.mode = .setup ∧ s.cht.settings.loopLength ≠ 0 ∧ s.cht.settings.cars ≠ 0 ∧ s.LinksPresent ∧ (¬ s.FireScriptHolds)) ∧
    (∃ (h : OrderHead) (s : State), s.Ready ∧ s.msu.mode = .setup ∧ s.cht.settings.loopLength ≠ 0 ∧ s.cht.settings.cars ≠ 0 ∧ s.LinksPresent ∧ s.FireScriptHolds ∧ s.toStore.Calm) ∧
    (∃ (h : OrderHead) (s : State), s.Ready ∧ s.msu.mode = .setup ∧ s.cht.settings.loopLength ≠ 0 ∧ s.cht.settings.cars ≠ 0 ∧ s.LinksPresent ∧ s.FireScriptHolds ∧ s.RunIffClosing) ∧
    (∃ (h : OrderHead) (s : State), s.Ready ∧ ∃ body : List Byte, body ≠ []) :=
  ⟨⟨head, shop, by decide +kernel⟩,
    ⟨head, { shop with msu.mode := .setup, cht.settings.loopLength := 0 }, by decide +kernel⟩,
    ⟨head, { shop with msu.mode := .setup, cht.settings.cars := 0 }, by decide +kernel⟩,
    ⟨head, { shop with msu.mode := .setup, shc.stations := put shop.shc.stations 0 (some { door .fire .opened with landing := some 3 }) }, (by decide +kernel), (by decide +kernel), (by decide +kernel), (by decide +kernel), (fun h => absurd (h 0 _ 3 rfl rfl) (by decide +kernel))⟩,
    ⟨head, { shop with msu.mode := .setup, fzu.fireScript := some 2 }, (by decide +kernel), (by decide +kernel), (by decide +kernel), (by decide +kernel), (links_of (by decide +kernel)), by decide +kernel⟩,
    ⟨head, { shop with msu.mode := .setup }, (by decide +kernel), (by decide +kernel), (by decide +kernel), (by decide +kernel), (links_of (by decide +kernel)), (by decide +kernel), (calm_of (by decide +kernel) (by decide +kernel) (by decide +kernel))⟩,
    ⟨head, { fireShop with msu.mode := .setup, msu.source := .reserve, lines.mainsOk := false }, (by decide +kernel), (by decide +kernel), (by decide +kernel), (by decide +kernel), (links_of (by decide +kernel)), by decide +kernel⟩,
    ⟨head, shop, (by decide +kernel), [1], by decide +kernel⟩⟩

theorem witness_WakeLatchOrders :
    (∃ (h : OrderHead) (s : State), s.Ready ∧ (s.msu.mode = .setup ∨ s.msu.mode = .trading)) ∧
    (∃ (h : OrderHead) (s : State), s.Ready ∧ s.msu.mode = .closing ∧ s.toStore.Calm) ∧
    (∃ (h : OrderHead) (s : State), s.Ready ∧ s.msu.mode = .night ∧ s.toStore.Calm ∧ (∀ c ∈ s.blx.calls, c.cls ≠ .watch)) ∧
    (∃ (h : OrderHead) (s : State), s.Ready ∧ (s.msu.mode = .closing ∨ s.msu.mode = .night)) ∧
    (∃ (h : OrderHead) (s : State), s.Ready ∧ ∃ body : List Byte, body ≠ []) ∧
    (∃ (h : OrderHead) (s : State), s.Ready) :=
  ⟨⟨head, shop, by decide +kernel⟩,
    ⟨head, closing .night, (by decide +kernel), (by decide +kernel), (calm_of (by decide +kernel) (by decide +kernel) (by decide +kernel))⟩,
    ⟨head, { shop with msu.mode := .night }, (by decide +kernel), (by decide +kernel), (calm_of (by decide +kernel) (by decide +kernel) (by decide +kernel)), by decide +kernel⟩,
    ⟨head, closing .night, by decide +kernel⟩,
    ⟨head, shop, (by decide +kernel), [1], by decide +kernel⟩,
    ⟨head, shop, by decide +kernel⟩⟩

theorem witness_ForceNightEntersNight :
    (∃ (h : OrderHead) (s : State), s.Ready ∧ (s.msu.mode = .setup ∨ s.msu.mode = .night)) ∧
    (∃ (h : OrderHead) (s : State), s.Ready ∧ (s.msu.mode = .trading ∨ s.msu.mode = .closing) ∧ s.fzu.fire = true) ∧
    (∃ (h : OrderHead) (s : State), s.Ready ∧ (s.msu.mode = .trading ∨ s.msu.mode = .closing) ∧ s.fzu.fire = false ∧ (s.demand ≠ .off ∨ s.pnc.state = .settling)) ∧
    (∃ (h : OrderHead) (s : State), s.Ready ∧ s.RunIffClosing ∧ (s.msu.mode = .trading ∨ s.msu.mode = .closing) ∧ s.fzu.fire = false ∧ s.demand = .off ∧ s.pnc.state ≠ .settling) :=
  ⟨⟨head, { shop with msu.mode := .night }, by decide +kernel⟩,
    ⟨head, fireShop, by decide +kernel⟩,
    ⟨head, running, by decide +kernel⟩,
    ⟨head, { playing .sounding with anp.queue := [⟨2, 0, 1, .routine, .host, false⟩], msu.wake := 1, blx.queue := [{ ordinary false .watch false with number := 6 }, { ordinary false .urgent false with number := 7 }], blx.ringers := put shop.blx.ringers 0 ⟨.striking, some (.ordinary (ordinary false .routine false)), 1, ⟨[2], 0, 0, true⟩, some 100⟩ }, by decide +kernel⟩⟩

theorem witness_Restarts :
    (∃ (h : OrderHead) (s : State), s.Ready) ∧
    (∃ (h : OrderHead) (s : State), s.Ready ∧ s.msu.key = true) ∧
    (∃ (h : OrderHead) (s : State), s.Ready ∧ s.msu.key = false) ∧
    (∃ (h : OrderHead) (s : State), ∃ body : List Byte, s.Ready ∧ body ≠ [1] ∧ body ≠ [2]) ∧
    (∃ (h : OrderHead) (s : State), s.lines.resetN = false) ∧
    (∃ (h : OrderHead) (s : State), s.lines.resetN = true) :=
  ⟨⟨head, shop, by decide +kernel⟩,
    ⟨head, shop, by decide +kernel⟩,
    ⟨head, { shop with msu.key := false }, by decide +kernel⟩,
    ⟨head, shop, [3], by decide +kernel⟩,
    ⟨head, shop, by decide +kernel⟩,
    ⟨head, { shop with lines.resetN := true }, by decide +kernel⟩⟩

theorem witness_SupplyAndPermits :
    (∃ (h : OrderHead) (b a g : Bool) (s : State), s.Ready) ∧
    (∃ (h : OrderHead) (b a g : Bool) (s : State), s.Ready ∧ s.msu.source = .mains ∧ s.toStore.Calm) ∧
    (∃ (h : OrderHead) (b a g : Bool) (s : State), s.Ready ∧ s.msu.source = .reserve ∧ s.msu.bellPermit = true ∧ b = false) ∧
    (∃ (h : OrderHead) (b a g : Bool) (s : State), s.Ready ∧ s.msu.source = .reserve ∧ s.msu.announcePermit = true ∧ a = false) ∧
    (∃ (h : OrderHead) (b a g : Bool) (s : State), s.Ready ∧ s.msu.source = .reserve ∧ ∃ (i : Fin 16) (sh : Shutter), s.msu.grillePermit = true ∧ g = false ∧ s.cpu.run = none ∧ s.shc.stations[i] = some sh ∧ sh.kind = .grille ∧ (sh.state = .descending ∨ sh.state = .raising ∧ (sh.upFire = false ∨ s.msu.batteryLow = true))) ∧
    (∃ s : State, s.lines.mainsOk = true ∧ (s.msu.batteryLow = true ∨ s.fzu.reserveHold = 0)) ∧
    (∃ s : State, s.lines.mainsOk = true ∧ ∃ (i : Fin 16) (sh : Shutter), (s.msu.batteryLow = true ∨ s.fzu.reserveHold = 0) ∧ s.shc.stations[i] = some sh ∧ sh.kind = .fire ∧ (sh.state = .opened ∨ sh.state = .releaseWait ∨ sh.state = .raising)) ∧
    (∃ s : State, s.lines.mainsOk = true ∧ s.msu.bellPermit = false) ∧
    (∃ s : State, s.lines.mainsOk = true ∧ s.msu.announcePermit = false) ∧
    (∃ s : State, s.lines.mainsOk = true ∧ ∃ (i : Fin 16) (sh : Shutter), s.cpu.run = none ∧ s.shc.stations[i] = some sh ∧ sh.kind = .grille ∧ (sh.state = .descending ∧ s.msu.grillePermit = false ∨ sh.state = .raising ∧ (s.msu.batteryLow = true ∨ sh.upFire = false ∧ s.msu.grillePermit = false))) ∧
    (∃ (i : Fin 16) (sh : Shutter) (s : State), s.lines.battLow = false ∧ s.msu.source = .reserve ∧ s.shc.stations[i] = some sh ∧ sh.kind = .fire ∧ (sh.state = .opened ∨ sh.state = .releaseWait ∨ sh.state = .raising)) ∧
    (∃ (i : Fin 16) (sh : Shutter) (s : State), s.lines.battLow = false ∧ s.msu.source = .reserve ∧ s.shc.stations[i] = some sh ∧ s.cpu.run = none ∧ sh.kind = .grille ∧ sh.state = .raising) ∧
    (∃ s : State, s.lines.mainsOk = true ∧ s.msu.batteryLow = false ∧ s.fzu.reserveHold ≠ 0) ∧
    (∃ s : State, s.lines.mainsOk = true ∧ s.pnc.state ≠ .estop ∧ s.pnc.state ≠ .lockedOut ∧ s.pnc.state ≠ .nightLock ∧ s.pnc.state ≠ .powerStop) ∧
    (∃ s : State, s.lines.mainsOk = false) ∧
    (∃ s : State, s.lines.mainsOk = false ∧ s.cpu.run = none ∧ s.fzu.fire = false ∧ s.pnc.state = .powerStop ∧ s.NoCauseInput) ∧
    (∃ s : State, s.lines.mainsOk = true) ∧
    (∃ s : State, s.lines.battLow = false) ∧
    (∃ s : State, s.lines.battLow = true ∧ s.toStore.Calm) ∧
    (∃ s : State, s.lines.battLow = true) :=
  ⟨⟨head, true, true, false, shop, by decide +kernel⟩,
    ⟨head, true, true, false, shop, (by decide +kernel), (by decide +kernel), (calm_of (by decide +kernel) (by decide +kernel) (by decide +kernel))⟩,
    ⟨head, false, true, true, { (withRinger (ordinary false .routine false) .striking shop) with lines.mainsOk := false, msu.source := .reserve, msu.bellPermit := true, msu.announcePermit := true, msu.grillePermit := true }, by decide +kernel⟩,
    ⟨head, true, false, true, { playing .sounding with lines.mainsOk := false, msu.source := .reserve, msu.bellPermit := true, msu.announcePermit := true, msu.grillePermit := true }, by decide +kernel⟩,
    ⟨head, true, true, false, { (withDoor (door .grille .descending) shop) with lines.mainsOk := false, msu.source := .reserve, msu.bellPermit := true, msu.announcePermit := true, msu.grillePermit := true }, (by decide +kernel), (by decide +kernel), 0, (door .grille .descending), by decide +kernel⟩,
    ⟨{ shop with msu.batteryLow := true, lines.battLow := true }, by decide +kernel⟩,
    ⟨{ (withDoor { door .fire .opened with landing := some 0 } shop) with fzu.reserveHold := 0, lines.openLim := 1 }, (by decide +kernel), 0, { door .fire .opened with landing := some 0 }, by decide +kernel⟩,
    ⟨(withRinger (ordinary false .routine false) .striking shop), by decide +kernel⟩,
    ⟨playing .sounding, by decide +kernel⟩,
    ⟨(withDoor (door .grille .raising) shop), (by decide +kernel), 0, (door .grille .raising), by decide +kernel⟩,
    ⟨0, { door .fire .raising with landing := some 0 }, { (withDoor { door .fire .raising with landing := some 0 } shop) with lines.mainsOk := false, msu.source := .reserve }, by decide +kernel⟩,
    ⟨0, { door .grille .raising with upFire := true }, { (withDoor { door .grille .raising with upFire := true } shop) with lines.mainsOk := false, msu.source := .reserve }, by decide +kernel⟩,
    ⟨shop, by decide +kernel⟩,
    ⟨running, by decide +kernel⟩,
    ⟨{ shop with lines.mainsOk := false, msu.source := .reserve }, by decide +kernel⟩,
    ⟨{ shop with lines.mainsOk := false, msu.source := .reserve, pnc.state := .powerStop, lines.cords := 2, lines.guards := 2 }, by decide +kernel⟩,
    ⟨shop, by decide +kernel⟩,
    ⟨shop, by decide +kernel⟩,
    ⟨{ shop with lines.battLow := true, msu.batteryLow := true }, (by decide +kernel), (calm_of (by decide +kernel) (by decide +kernel) (by decide +kernel))⟩,
    ⟨{ shop with lines.battLow := true, msu.batteryLow := true }, by decide +kernel⟩⟩

theorem witness_KeysAndQuietLevels :
    (∃ s : State, s.lines.staffKey = false ∧ s.msu.mode ≠ .night ∧ s.toStore.Calm) ∧
    (∃ s : State, s.lines.staffKey = false ∧ s.msu.mode = .night ∧ s.RunIffClosing ∧ s.pnc.state ≠ .settling) ∧
    (∃ s : State, s.lines.staffKey = false ∧ s.msu.mode = .night ∧ s.RunIffClosing ∧ s.pnc.state = .settling ∧ s.cht.settled = false) ∧
    (∃ s : State, s.lines.staffKey = false ∧ s.msu.mode = .night ∧ s.toStore.Calm ∧ ∀ c ∈ s.blx.calls, c.cls ≠ .watch) ∧
    (∃ s : State, s.lines.staffKey = true) ∧
    (∃ (active : Bool) (s : State), s.lines.commission = active) ∧
    (∃ (active : Bool) (s : State), s.lines.commission ≠ active ∧ s.toStore.Calm ∧ s.cht.survey = none) ∧
    (∃ (active : Bool) (s : State), s.lines.commission ≠ active ∧ s.toStore.Calm ∧ active = true ∧ s.cht.survey ≠ none) ∧
    (∃ (active : Bool) (s : State), s.lines.commission = true ∧ active = false ∧ s.cht.survey ≠ none) ∧
    (∃ (i : CauseInput) (n : Fin 10) (s : State), s.lines.drvReady = false ∧ s.toStore.Calm) :=
  ⟨⟨shop, (by decide +kernel), (by decide +kernel), (calm_of (by decide +kernel) (by decide +kernel) (by decide +kernel))⟩,
    ⟨{ shop with msu.mode := .night }, by decide +kernel⟩,
    ⟨{ settlingAt .normal 402 with msu.mode := .night }, by decide +kernel⟩,
    ⟨{ shop with msu.mode := .night, blx.queue := [] }, (by decide +kernel), (by decide +kernel), (calm_of (by decide +kernel) (by decide +kernel) (by decide +kernel)), by decide +kernel⟩,
    ⟨{ shop with lines.staffKey := true }, by decide +kernel⟩,
    ⟨true, shop, by decide +kernel⟩,
    ⟨false, shop, (by decide +kernel), (calm_of (by decide +kernel) (by decide +kernel) (by decide +kernel)), by decide +kernel⟩,
    ⟨true, { shop with lines.commission := false, cht.survey := some Survey.start, pnc.state := .survey }, (by decide +kernel), (calm_of (by decide +kernel) (by decide +kernel) (by decide +kernel)), by decide +kernel⟩,
    ⟨false, { shop with cht.survey := some Survey.start, pnc.state := .survey }, by decide +kernel⟩,
    ⟨.driveFault, 0, { shop with lines.drvReady := false }, (by decide +kernel), (calm_of (by decide +kernel) (by decide +kernel) (by decide +kernel))⟩⟩

/-- As `pause1`. -/
def pause7 : {n : Nat // n = 7} := ⟨7, by decide +kernel⟩

theorem witness_ChainSettingsAreLoaded :
    (∃ (h : OrderHead) (body : List Byte) (s : State), s.Ready ∧ body.length = 7 ∧ s.msu.key = false) ∧
    (∃ (h : OrderHead) (body : List Byte) (s : State), s.Ready ∧ body.length = 7 ∧ s.msu.key = true ∧ s.fzu.fire = true) ∧
    (∃ (h : OrderHead) (body : List Byte) (s : State), s.Ready ∧ body.length = 7 ∧ s.msu.key = true ∧ s.fzu.fire = false ∧ s.demand ≠ .off) ∧
    (∃ (h : OrderHead) (body : List Byte) (s : State), s.Ready ∧ body.length = 7 ∧ s.msu.key = true ∧ s.demand = .off ∧ s.toStore.Calm ∧ (Body.settings body).valid = true) :=
  ⟨⟨head, [2, 88, 2, 4, 8, 6, 30], { shop with msu.key := false }, by decide +kernel⟩,
    ⟨head, [2, 88, 2, 4, 8, 6, 30], fireShop, by decide +kernel⟩,
    ⟨head, [2, 88, 2, 4, 8, 6, 30], running, by decide +kernel⟩,
    ⟨head, [2, 88, 2, 4, 8, 6, 30], shop, (by decide +kernel), (by decide +kernel), (by decide +kernel), (by decide +kernel), (calm_of (by decide +kernel) (by decide +kernel) (by decide +kernel)), by decide +kernel⟩⟩

theorem witness_LandingsAndClearList :
    (∃ (h : OrderHead) (s : State), s.Ready ∧ s.msu.key = true ∧ s.demand = .off ∧ s.toStore.Calm ∧ ∃ (body : List Byte) (i : Fin 8), body.length = Body.landingLength body ∧ Body.fin 8 body 0 = some i ∧ Body.isFlag body 1 = true ∧ 4 ≤ body.length ∧ ((Body.landing body).present = true ∨ (Body.landing body).up = [] ∧ (Body.landing body).down = []) ∧ sillListValid s.cht.settings (Body.landing body).up = true ∧ sillListValid s.cht.settings (Body.landing body).down = true) ∧
    (∃ (h : OrderHead) (s : State), s.Ready ∧ s.msu.key = true ∧ s.demand = .off ∧ s.toStore.Calm) ∧
    (∃ (c : Cht) (i : Fin 8) (p : Nat), c.surveyed c.landings[i] = true ∧ (p ∈ c.landings[i].up ∨ p ∈ c.landings[i].down) ∧ c.clearSetAt p ≠ 0 ∧ p ∉ c.derive.map ClearEntry.pos ∧ c.derive.length < 16) ∧
    (∃ (c : Cht) (i : Fin 8) (p : Nat), c.surveyed c.landings[i] = true ∧ p ∈ c.landings[i].up ∧ c.clearSetAt p ≠ 0 ∧ c.derive.length = 16 ∧ ∀ e ∈ c.derive, 2 * c.settings.levelTol < circDist c.settings.loopLength p e.pos) ∧
    (∃ c : Cht, c.clearList = []) ∧ (∃ c : Cht, c.clearList ≠ []) :=
  ⟨⟨head, shop, (by decide +kernel), (by decide +kernel), (by decide +kernel), (calm_of (by decide +kernel) (by decide +kernel) (by decide +kernel)), [0, 1, 2, 0, 100, 1, 144, 2, 0, 100, 1, 144], 0, by decide +kernel⟩,
    ⟨head, shop, (by decide +kernel), (by decide +kernel), (by decide +kernel), (calm_of (by decide +kernel) (by decide +kernel) (by decide +kernel))⟩,
    ⟨{ shop.cht with landings := put Cht.reset.landings 0 ⟨true, [100, 400], [108, 404]⟩, settings.levelTol := 8 }, 0, 404, by decide +kernel⟩,
    ⟨manyEntries, 0, 340, by decide +kernel⟩, ⟨Cht.reset, rfl⟩, ⟨shop.cht, by decide +kernel⟩⟩

theorem witness_SurveysBeginAndEnd :
    (∃ (h : OrderHead) (s : State) (x : Reason), s.Ready ∧ s.MayHold h ∧ s.surveyRefusal = some x) ∧
    (∃ (h : OrderHead) (s : State) (body : List Byte), s.Ready ∧ s.MayHold h ∧ body ≠ []) ∧
    (∃ (h : OrderHead) (s : State), s.Ready ∧ s.MayHold h ∧ s.toStore.Calm ∧ s.surveyRefusal = none) ∧
    (∃ (x : Survey) (s : State), s.cht.survey = some x ∧ s.toStore.Calm ∧ s.pnc.state = .survey ∧ s.cpu.run = none ∧ 0 < s.cht.settings.loopLength ∧ (∀ p, s.cht.position = some p → circDist s.cht.settings.loopLength p 0 ≤ s.cht.settings.indexTol) ∧ x.recording = true ∧ s.cht.settled = false ∧ x.succeeds s.cht = true) ∧
    (∃ (x : Survey) (s : State), s.cht.survey = some x ∧ s.toStore.Calm ∧ s.pnc.state = .survey ∧ s.cpu.run = none ∧ 0 < s.cht.settings.loopLength ∧ (∀ p, s.cht.position = some p → circDist s.cht.settings.loopLength p 0 ≤ s.cht.settings.indexTol) ∧ x.recording = true ∧ s.cht.settled = false ∧ x.succeeds s.cht = false) ∧
    (∃ (x : Survey) (s : State), s.cht.survey = some x ∧ s.toStore.Calm ∧ s.pnc.state = .survey ∧ s.cpu.run = none ∧ s.cht.surveyTimer ≠ none) ∧
    (∃ (x : Survey) (s : State), s.cht.survey = some x ∧ s.pnc.state = .survey ∧ 0 < s.cht.settings.loopLength ∧ s.cht.position = none ∧ x.recording = false ∧ s.toStore.Calm) ∧
    (∃ (x : Survey) (s : State), s.cht.survey = some x ∧ s.pnc.state = .survey ∧ 0 < s.cht.settings.loopLength ∧ (∀ p, s.cht.position = some p → circDist s.cht.settings.loopLength p 0 ≤ s.cht.settings.indexTol) ∧ s.cht.position = some 8 ∧ x.recording = false ∧ s.toStore.Calm) ∧
    (∃ (x : Survey) (s : State) (p : Nat), s.cht.survey = some x ∧ s.pnc.state = .survey ∧ 0 < s.cht.settings.loopLength ∧ s.cht.position = some p ∧ s.cht.settings.indexTol < circDist s.cht.settings.loopLength p 0) :=
  ⟨⟨holding, { shop with msu.key := false }, .locked, by decide +kernel⟩, ⟨holding, shop, [1], by decide +kernel⟩,
    ⟨head, shop, (by decide +kernel), (by decide +kernel), (calm_of (by decide +kernel) (by decide +kernel) (by decide +kernel)), by decide +kernel⟩,
    ⟨⟨true, put Survey.start.up 0 ⟨2, [100, 400]⟩, put Survey.start.down 0 ⟨2, [100, 400]⟩⟩, { { shop with cht.survey := some ⟨true, put Survey.start.up 0 ⟨2, [100, 400]⟩, put Survey.start.down 0 ⟨2, [100, 400]⟩⟩, cht.position := some 0, pnc.state := .survey, cht.surveyTimer := some 9000, out.demand := .creep } with cht.position := some 592 }, (by decide +kernel), (calm_of (by decide +kernel) (by decide +kernel) (by decide +kernel)), (by decide +kernel), (by decide +kernel), (by decide +kernel), (all_of (by decide +kernel)), by decide +kernel⟩,
    ⟨⟨true, Survey.start.up, Survey.start.down⟩, { { shop with cht.survey := some ⟨true, Survey.start.up, Survey.start.down⟩, cht.position := some 0, pnc.state := .survey, cht.surveyTimer := some 9000, out.demand := .creep } with cht.position := some 8 }, (by decide +kernel), (calm_of (by decide +kernel) (by decide +kernel) (by decide +kernel)), (by decide +kernel), (by decide +kernel), (by decide +kernel), (all_of (by decide +kernel)), by decide +kernel⟩,
    ⟨⟨true, put Survey.start.up 0 ⟨2, [100, 400]⟩, put Survey.start.down 0 ⟨2, [100, 400]⟩⟩, { shop with cht.survey := some ⟨true, put Survey.start.up 0 ⟨2, [100, 400]⟩, put Survey.start.down 0 ⟨2, [100, 400]⟩⟩, cht.position := some 0, pnc.state := .survey, cht.surveyTimer := some 9000, out.demand := .creep }, (by decide +kernel), (calm_of (by decide +kernel) (by decide +kernel) (by decide +kernel)), by decide +kernel⟩,
    ⟨.start, { shop with cht.survey := some .start, cht.position := none, pnc.state := .survey, out.demand := .creep }, (by decide +kernel), (by decide +kernel), (by decide +kernel), (by decide +kernel), (by decide +kernel), (calm_of (by decide +kernel) (by decide +kernel) (by decide +kernel))⟩,
    ⟨.start, { shop with cht.survey := some .start, cht.position := some 8, pnc.state := .survey, out.demand := .creep }, (by decide +kernel), (by decide +kernel), (by decide +kernel), (all_of (by decide +kernel)), (by decide +kernel), (by decide +kernel), (calm_of (by decide +kernel) (by decide +kernel) (by decide +kernel))⟩,
    ⟨.start, { shop with cht.survey := some .start, cht.position := some 591, pnc.state := .survey, out.demand := .creep }, 591, by decide +kernel⟩⟩

theorem witness_EncoderAndIndex :
    (∃ s : State, 0 < s.cht.settings.loopLength) ∧
    (∃ s : State, ∃ p, 0 < s.cht.settings.loopLength ∧ s.cht.position = some p ∧ s.cht.settings.indexTol < circDist s.cht.settings.loopLength p 0 ∧ s.pnc.state ≠ .lockedOut ∧ s.pnc.state ≠ .powerStop ∧ s.pnc.state ≠ .estop) ∧
    (∃ s : State, 0 < s.cht.settings.loopLength ∧ s.toStore.Calm ∧ s.cht.survey = none ∧ (∀ p, s.cht.position = some p → circDist s.cht.settings.loopLength p 0 ≤ s.cht.settings.indexTol) ∧ (¬ (s.pnc.state = .creeping ∧ s.pnc.target = none))) :=
  ⟨⟨shop, by decide +kernel⟩,
    ⟨running, 100, by decide +kernel⟩,
    ⟨{ shop with cht.position := some 597 }, (by decide +kernel), (calm_of (by decide +kernel) (by decide +kernel) (by decide +kernel)), (by decide +kernel), (all_of (by decide +kernel)), by decide +kernel⟩⟩

theorem witness_SillEdgesCheckAndCount :
    (∃ (l : Fin 8) (list : List Nat) (s : State), s.toStore.Calm ∧ list = s.cht.landings[l].up ∧ ∃ p, s.cht.position = some p ∧ s.cht.survey = none ∧ s.cht.settled = false ∧ s.cht.landings[l].present = true ∧ 0 < s.cht.settings.cars ∧ s.cht.landings[l].up.length = s.cht.settings.cars ∧ s.cht.landings[l].down.length = s.cht.settings.cars ∧ (∀ q ∈ list, s.cht.settings.levelTol < circDist s.cht.settings.loopLength q p) ∧ s.pnc.state ≠ .estop ∧ s.pnc.state ≠ .lockedOut ∧ s.pnc.state ≠ .powerStop) ∧
    (∃ (l : Fin 8) (list : List Nat) (s : State), s.toStore.Calm ∧ list = s.cht.landings[l].down ∧ s.cht.survey = none ∧ ∃ p, s.cht.position = some p ∧ ∃ q ∈ list, circDist s.cht.settings.loopLength q p ≤ s.cht.settings.levelTol) ∧
    (∃ (l : Fin 8) (s : State), s.toStore.Calm ∧ s.cht.survey = none ∧ s.cht.landings[l].present = true ∧ s.cht.landings[l].up.length = s.cht.settings.cars ∧ s.cht.landings[l].down.length ≠ s.cht.settings.cars) ∧
    (∃ (l : Fin 8) (p : Nat) (x : Survey) (s : State), s.toStore.Calm ∧ s.cht.position = some p ∧ s.cht.survey = some x ∧ x.recording = true ∧ s.cht.landings[l].present = true) ∧
    (∃ (l : Fin 8) (x : Survey) (s : State), s.toStore.Calm ∧ s.cht.survey = some x ∧ (x.recording = false ∨ s.cht.landings[l].present = false)) ∧
    (∃ (x y : Survey) (l : Fin 8) (side : Side) (p : Nat), y = x.edge l side p ∧ (x.sideCount l side).list.Pairwise (· < ·) ∧ ∃ (l' : Fin 8) (side' : Side), l' ≠ l ∨ side' ≠ side) :=
  ⟨⟨0, [100, 400], { running with cht.position := some 395 }, (calm_of (by decide +kernel) (by decide +kernel) (by decide +kernel)), (by decide +kernel), 395, by decide +kernel⟩,
    ⟨0, [100, 400], { running with cht.position := some 396 }, (calm_of (by decide +kernel) (by decide +kernel) (by decide +kernel)), (by decide +kernel), (by decide +kernel), 396, (by decide +kernel), 400, by decide +kernel⟩,
    ⟨0, { running with cht.landings := put Cht.reset.landings 0 ⟨true, [100, 400], []⟩ }, (calm_of (by decide +kernel) (by decide +kernel) (by decide +kernel)), by decide +kernel⟩,
    ⟨0, 0, ⟨true, put Survey.start.up 0 ⟨2, [100, 400]⟩, put Survey.start.down 0 ⟨2, [100, 400]⟩⟩, { shop with cht.survey := some ⟨true, put Survey.start.up 0 ⟨2, [100, 400]⟩, put Survey.start.down 0 ⟨2, [100, 400]⟩⟩, cht.position := some 0, pnc.state := .survey, out.demand := .creep }, (calm_of (by decide +kernel) (by decide +kernel) (by decide +kernel)), by decide +kernel⟩,
    ⟨1, .start, { shop with cht.survey := some .start, pnc.state := .survey, out.demand := .creep }, (calm_of (by decide +kernel) (by decide +kernel) (by decide +kernel)), by decide +kernel⟩,
    ⟨⟨true, put Survey.start.up 0 ⟨2, [100, 400]⟩, put Survey.start.down 0 ⟨2, [100, 400]⟩⟩, _, 0, .up, 250, rfl, (by decide +kernel), 0, .down, by decide +kernel⟩⟩

/-- A landing with the list of one side alone takes no part in the check (log 61). -/
theorem test_one_sided_landing_is_not_checked :
    (fun s : State => ((after (.sillEdge 0 .up) s).pnc.state, (after (.sillEdge 0 .up) { s with cht.landings := put Cht.reset.landings 0 ⟨true, [100, 400], []⟩ }).pnc.state))
      { running with cht.position := some 200 } = (.estop, .running) := by
  decide +kernel

theorem witness_StartsOfThePaternoster :
    (∃ (h : OrderHead) (s : State), s.Ready ∧ s.MayHold h ∧ s.toStore.Calm ∧ (s.pnc.state = .halted ∨ s.pnc.state = .nightLock) ∧ (s.msu.mode = .trading ∨ s.msu.mode = .closing) ∧ s.msu.source = .mains ∧ s.lines.drvReady = true ∧ s.allLinkedOpen = true ∧ s.NoCauseInput) ∧
    (∃ (h : OrderHead) (s : State), s.Ready ∧ s.MayHold h ∧ s.pnc.state ≠ .halted ∧ s.pnc.state ≠ .nightLock) ∧
    (∃ (h : OrderHead) (s : State), s.Ready ∧ s.MayHold h ∧ (s.pnc.state = .halted ∨ s.pnc.state = .nightLock) ∧ (s.msu.mode = .setup ∨ s.msu.mode = .night)) ∧
    (∃ (h : OrderHead) (s : State), s.Ready ∧ s.MayHold h ∧ (s.pnc.state = .halted ∨ s.pnc.state = .nightLock) ∧ (s.msu.mode = .trading ∨ s.msu.mode = .closing) ∧ s.fzu.fire = true) ∧
    (∃ (h : OrderHead) (s : State), s.Ready ∧ s.MayHold h ∧ (s.pnc.state = .halted ∨ s.pnc.state = .nightLock) ∧ (s.msu.mode = .trading ∨ s.msu.mode = .closing) ∧ s.fzu.fire = false ∧ s.msu.source = .reserve) ∧
    (∃ (h : OrderHead) (s : State), s.Ready ∧ s.MayHold h ∧ (s.pnc.state = .halted ∨ s.pnc.state = .nightLock) ∧ (s.msu.mode = .trading ∨ s.msu.mode = .closing) ∧ s.fzu.fire = false ∧ s.msu.source = .mains ∧ s.lines.drvReady = false) ∧
    (∃ (h : OrderHead) (s : State), s.Ready ∧ s.MayHold h ∧ (s.pnc.state = .halted ∨ s.pnc.state = .nightLock) ∧ (s.msu.mode = .trading ∨ s.msu.mode = .closing) ∧ s.fzu.fire = false ∧ s.msu.source = .mains ∧ s.lines.drvReady = true ∧ s.allLinkedOpen = false) ∧
    (∃ (h : OrderHead) (s : State), s.Ready ∧ s.MayHold h ∧ (s.pnc.state = .halted ∨ s.pnc.state = .nightLock) ∧ (s.msu.mode = .trading ∨ s.msu.mode = .closing) ∧ s.fzu.fire = false ∧ s.msu.source = .mains ∧ s.lines.drvReady = true ∧ s.allLinkedOpen = true ∧ (¬ s.NoCauseInput)) ∧
    (∃ (h : OrderHead) (s : State), s.Ready ∧ s.MayHold h ∧ ∃ body : List Byte, body ≠ []) ∧
    (∃ s : State, s.toStore.Calm ∧ s.pnc.state = .starting ∧ s.pnc.purpose = .normal) ∧
    (∃ s : State, s.toStore.Calm ∧ s.pnc.state = .starting ∧ s.pnc.purpose = .sweep) ∧
    (∃ s : State, s.toStore.Calm ∧ s.pnc.state = .starting ∧ s.pnc.startTimer ≠ none) :=
  ⟨⟨holding, { shop with lines.cords := 2, lines.guards := 128 }, (by decide +kernel), (by decide +kernel), (calm_of (by decide +kernel) (by decide +kernel) (by decide +kernel)), by decide +kernel⟩,
    ⟨head, running, by decide +kernel⟩,
    ⟨head, { shop with msu.mode := .night }, by decide +kernel⟩,
    ⟨head, fireShop, by decide +kernel⟩,
    ⟨head, { shop with msu.source := .reserve }, by decide +kernel⟩,
    ⟨head, { shop with lines.drvReady := false }, by decide +kernel⟩,
    ⟨head, (withDoor { door .grille .closed with landing := some 0 } shop), by decide +kernel⟩,
    ⟨head, { shop with lines.cords := 1 }, by decide +kernel⟩,
    ⟨head, shop, (by decide +kernel), (by decide +kernel), [1], by decide +kernel⟩,
    ⟨{ shop with pnc.state := .starting }, (calm_of (by decide +kernel) (by decide +kernel) (by decide +kernel)), by decide +kernel⟩,
    ⟨{ shop with pnc.state := .starting, pnc.purpose := .sweep, pnc.startTimer := some 300 }, (calm_of (by decide +kernel) (by decide +kernel) (by decide +kernel)), by decide +kernel⟩,
    ⟨{ shop with pnc.state := .starting, pnc.startTimer := some 300, pnc.purpose := .sweep }, (calm_of (by decide +kernel) (by decide +kernel) (by decide +kernel)), by decide +kernel⟩⟩

/-- As `pause1`. -/
def pause8 : {n : Nat // n = 8} := ⟨8, by decide +kernel⟩

theorem witness_StopsOfThePaternoster :
    (∃ (h : OrderHead) (s : State), s.Ready ∧ s.MayHold h ∧ (s.pnc.state = .halted ∨ s.pnc.state = .nightLock)) ∧
    (∃ (h : OrderHead) (s : State), s.Ready ∧ s.MayHold h ∧ s.pnc.state = .held) ∧
    (∃ (h : OrderHead) (s : State), s.Ready ∧ s.MayHold h ∧ (s.pnc.state = .creeping ∨ s.pnc.state = .settling) ∧ s.pnc.purpose = .fire) ∧
    (∃ (h : OrderHead) (s : State), s.Ready ∧ s.MayHold h ∧ (s.pnc.state = .estop ∨ s.pnc.state = .lockedOut ∨ s.pnc.state = .powerStop)) ∧
    (∃ (h : OrderHead) (s : State), s.Ready ∧ s.MayHold h ∧ ∃ body : List Byte, body ≠ []) ∧
    (∃ (h : OrderHead) (s : State), s.Ready ∧ s.MayHold h ∧ s.toStore.Calm ∧ ∃ p g, s.pnc.state = .running ∧ s.cht.position = some p ∧ s.nearest p = some g) ∧
    (∃ (h : OrderHead) (s : State), s.Ready ∧ s.MayHold h ∧ s.toStore.Calm ∧ s.pnc.state = .running ∧ (s.cht.position = none ∨ s.cht.clearList = []) ∧ s.cht.settled = true) ∧
    (∃ (h : OrderHead) (s : State), s.Ready ∧ s.MayHold h ∧ s.toStore.Calm ∧ ∃ p g, s.pnc.state = .sweeping ∧ s.cht.position = some p ∧ s.nearest p = some g) ∧
    (∃ (h : OrderHead) (s : State), s.Ready ∧ s.MayHold h ∧ s.toStore.Calm ∧ s.pnc.state = .sweeping ∧ (s.cht.position = none ∨ s.cht.clearList = []) ∧ ∃ run, s.cpu.run = some run ∧ s.pnc.sweepClaimed = true) ∧
    (∃ (h : OrderHead) (s : State), s.Ready ∧ s.MayHold h ∧ s.toStore.Calm ∧ s.pnc.state = .starting ∧ s.pnc.purpose = .sweep) ∧
    (∃ (h : OrderHead) (s : State), s.Ready ∧ s.MayHold h ∧ s.toStore.Calm ∧ (s.pnc.state = .creeping ∨ s.pnc.state = .settling) ∧ s.pnc.purpose = .normal) ∧
    (∃ (h : OrderHead) (s : State), s.Ready ∧ s.MayHold h ∧ s.toStore.Calm ∧ (s.pnc.state = .creeping ∨ s.pnc.state = .settling) ∧ s.pnc.purpose = .sweep) ∧
    (∃ (h : OrderHead) (s : State), s.Ready ∧ s.MayHold h ∧ s.toStore.Calm ∧ s.pnc.state = .survey ∧ s.cht.survey ≠ none) ∧
    (∃ (st : Store) (p t : Nat), st.nearest p = some t) ∧
    (∃ (p t : Nat) (s : State), s.cht.position = some p ∧ s.pnc.target = some t ∧ s.toStore.Calm ∧ s.pnc.state = .creeping ∧ s.pnc.purpose ≠ .fire ∧ distAhead s.cht.settings.loopLength ((p + 1) % s.cht.settings.loopLength) t = s.cht.settings.stopLead) ∧
    (∃ (p t : Nat) (s : State), s.cht.position = some p ∧ s.pnc.target = some t ∧ s.toStore.Calm ∧ s.pnc.state = .creeping ∧ distAhead s.cht.settings.loopLength ((p + 1) % s.cht.settings.loopLength) t ≠ s.cht.settings.stopLead) ∧
    (∃ (rest : PnState) (s : State), s.toStore.Calm ∧ s.pnc.state = .settling ∧ s.pnc.purpose = .normal ∧ s.cht.settleWait ≠ none ∧ rest = (if s.msu.mode = .night then .nightLock else .halted) ∧ s.pnc.target = none) ∧
    (∃ (rest : PnState) (s : State), s.toStore.Calm ∧ s.pnc.state = .settling ∧ s.pnc.purpose = .normal ∧ s.cht.settleWait ≠ none ∧ rest = (if s.msu.mode = .night then .nightLock else .halted) ∧ s.AtTarget) ∧
    (∃ (rest : PnState) (s : State), s.toStore.Calm ∧ s.pnc.state = .settling ∧ s.pnc.purpose = .normal ∧ s.cht.settleWait ≠ none ∧ rest = (if s.msu.mode = .night then .nightLock else .halted) ∧ s.MissedForGood) ∧
    (∃ (rest : PnState) (s : State) (p g : Nat), s.toStore.Calm ∧ s.pnc.state = .settling ∧ s.pnc.purpose = .normal ∧ s.cht.settleWait ≠ none ∧ rest = (if s.msu.mode = .night then .nightLock else .halted) ∧ s.OffTarget ∧ s.pnc.missCount = 0 ∧ s.gateOpen = true ∧ s.cht.position = some p ∧ s.nearest p = some g) ∧
    (∃ (p : Nat) (s : State), s.fzu.fire = true ∧ s.pnc.state = .settling ∧ s.pnc.purpose = .fire ∧ s.cht.settleWait ≠ none ∧ s.cht.position = some p ∧ s.AtTarget ∧ s.restTarget = none) ∧
    (∃ (p : Nat) (s : State), s.fzu.fire = true ∧ s.pnc.state = .settling ∧ s.pnc.purpose = .fire ∧ s.cht.settleWait ≠ none ∧ s.cht.position = some p ∧ s.OffTarget ∧ s.pnc.missCount = 0 ∧ s.gateOpen = false ∧ s.restTarget = none) ∧
    (∃ (p g : Nat) (s : State), s.fzu.fire = true ∧ s.pnc.state = .settling ∧ s.pnc.purpose = .fire ∧ s.cht.settleWait ≠ none ∧ s.cht.position = some p ∧ s.AtTarget ∧ s.restTarget = some g) ∧
    (∃ (p g : Nat) (s : State), s.fzu.fire = true ∧ s.pnc.state = .settling ∧ s.pnc.purpose = .fire ∧ s.cht.settleWait ≠ none ∧ s.cht.position = some p ∧ s.OffTarget ∧ s.pnc.missCount = 0 ∧ s.gateOpen = true ∧ s.fireTarget p = some g) ∧
    (∃ s : State, s.pnc.state = .settling ∧ s.cht.settleWait ≠ none ∧ s.OffTarget ∧ s.pnc.missCount ≠ 0) ∧
    (∃ (st : Store) (p t : Nat), 0 < st.cht.settings.loopLength ∧ st.cht.settings.loopLength ≤ 16384 ∧ st.fireTarget p = some t) :=
  ⟨⟨holding, shop, by decide +kernel⟩,
    ⟨head, { fireShop with pnc.state := .held }, by decide +kernel⟩,
    ⟨holding, { fireShop with pnc.state := .settling, pnc.purpose := .fire }, by decide +kernel⟩,
    ⟨head, { shop with pnc.state := .powerStop }, by decide +kernel⟩,
    ⟨head, shop, (by decide +kernel), (by decide +kernel), [1], by decide +kernel⟩,
    ⟨head, running, (by decide +kernel), (by decide +kernel), (calm_of (by decide +kernel) (by decide +kernel) (by decide +kernel)), 100, 400, by decide +kernel⟩,
    ⟨head, { running with cht.position := none, cht.settled := true }, (by decide +kernel), (by decide +kernel), (calm_of (by decide +kernel) (by decide +kernel) (by decide +kernel)), by decide +kernel⟩,
    ⟨holding, sweeping, (by decide +kernel), (by decide +kernel), (calm_of (by decide +kernel) (by decide +kernel) (by decide +kernel)), 100, 400, by decide +kernel⟩,
    ⟨head, { sweeping with cht.clearList := [] }, (by decide +kernel), (by decide +kernel), (calm_of (by decide +kernel) (by decide +kernel) (by decide +kernel)), (by decide +kernel), (by decide +kernel), ⟨.order, eight, 1, [⟨.waiting, .none, []⟩]⟩, by decide +kernel⟩,
    ⟨holding, { shop with pnc.state := .starting, pnc.purpose := .sweep, pnc.startTimer := some 300 }, (by decide +kernel), (by decide +kernel), (calm_of (by decide +kernel) (by decide +kernel) (by decide +kernel)), by decide +kernel⟩,
    ⟨head, creeping, (by decide +kernel), (by decide +kernel), (calm_of (by decide +kernel) (by decide +kernel) (by decide +kernel)), by decide +kernel⟩,
    ⟨head, { creeping with pnc.state := .settling, pnc.purpose := .sweep }, (by decide +kernel), (by decide +kernel), (calm_of (by decide +kernel) (by decide +kernel) (by decide +kernel)), by decide +kernel⟩,
    ⟨holding, { shop with pnc.state := .survey, cht.survey := some .start, cht.surveyTimer := some 9000 }, (by decide +kernel), (by decide +kernel), (calm_of (by decide +kernel) (by decide +kernel) (by decide +kernel)), by decide +kernel⟩,
    ⟨shop.toStore, 100, 400, by decide +kernel⟩,
    ⟨393, 400, { creeping with cht.position := some 393 }, (by decide +kernel), (by decide +kernel), (calm_of (by decide +kernel) (by decide +kernel) (by decide +kernel)), by decide +kernel⟩,
    ⟨100, 400, creeping, (by decide +kernel), (by decide +kernel), (calm_of (by decide +kernel) (by decide +kernel) (by decide +kernel)), by decide +kernel⟩,
    ⟨.halted, { settlingAt .normal 402 with pnc.target := none }, (calm_of (by decide +kernel) (by decide +kernel) (by decide +kernel)), by decide +kernel⟩,
    ⟨.nightLock, { settlingAt .normal 404 with msu.mode := .night }, (calm_of (by decide +kernel) (by decide +kernel) (by decide +kernel)), (by decide +kernel), (by decide +kernel), (by decide +kernel), (by decide +kernel), 404, 400, by decide +kernel⟩,
    ⟨.halted, withDoor { door .grille .raising with landing := some 0 } (settlingAt .normal 405), (calm_of (by decide +kernel) (by decide +kernel) (by decide +kernel)), (by decide +kernel), (by decide +kernel), (by decide +kernel), (by decide +kernel), ⟨400, by decide +kernel, all_of (by decide +kernel)⟩, by decide +kernel⟩,
    ⟨.halted, settlingAt .normal 405, 405, 100, (calm_of (by decide +kernel) (by decide +kernel) (by decide +kernel)), (by decide +kernel), (by decide +kernel), (by decide +kernel), (by decide +kernel), ⟨400, by decide +kernel, all_of (by decide +kernel)⟩, by decide +kernel⟩,
    ⟨400, fireSettling 0 400, (by decide +kernel), (by decide +kernel), (by decide +kernel), (by decide +kernel), (by decide +kernel), ⟨400, 400, by decide +kernel⟩, by decide +kernel⟩,
    ⟨405, { fireSettling 1 405 with shc.stations := put (fireSettling 1 405).shc.stations 1 (some { door .fire .descending with landing := some 0 }) }, (by decide +kernel), (by decide +kernel), (by decide +kernel), (by decide +kernel), (by decide +kernel), ⟨400, by decide +kernel, all_of (by decide +kernel)⟩, by decide +kernel⟩,
    ⟨396, 250, fireSettling 1 396, (by decide +kernel), (by decide +kernel), (by decide +kernel), (by decide +kernel), (by decide +kernel), ⟨396, 400, by decide +kernel⟩, by decide +kernel⟩,
    ⟨405, 100, fireSettling 0 405, (by decide +kernel), (by decide +kernel), (by decide +kernel), (by decide +kernel), (by decide +kernel), ⟨400, by decide +kernel, all_of (by decide +kernel)⟩, by decide +kernel⟩,
    ⟨{ settlingAt .normal 395 with pnc.missCount := 1 }, (by decide +kernel), (by decide +kernel), ⟨400, by decide +kernel, all_of (by decide +kernel)⟩, by decide +kernel⟩,
    ⟨(fireSettling 1 405).toStore, 405, 250, by decide +kernel⟩⟩

theorem witness_SweepRunsItsLoop :
    (∃ (h : OrderHead) (s : State), s.Ready ∧ s.MayHold h ∧ ∃ x, s.pnSweepRefusal = some x) ∧
    (∃ (h : OrderHead) (s : State), s.Ready ∧ s.MayHold h ∧ s.pnc.state = .nightLock ∧ (s.msu.mode = .trading ∨ s.msu.mode = .closing)) ∧
    (∃ (h : OrderHead) (s : State), s.Ready ∧ s.MayHold h ∧ ∃ body : List Byte, body ≠ []) ∧
    (∃ (h : OrderHead) (s : State), s.Ready ∧ s.MayHold h ∧ s.toStore.Calm ∧ s.pnSweepRefusal = none ∧ s.pnc.state = .running) ∧
    (∃ (h : OrderHead) (s : State), s.Ready ∧ s.MayHold h ∧ s.toStore.Calm ∧ s.pnSweepRefusal = none ∧ s.pnc.state = .halted) ∧
    (∃ s : State, s.toStore.Calm ∧ s.pnc.state = .sweeping ∧ s.pnc.sweepCount + 1 ≠ s.cht.settings.loopLength) ∧
    (∃ s : State, s.toStore.Calm ∧ ∃ best, s.pnc.state = .sweeping ∧ s.pnc.sweepCount + 1 = s.cht.settings.loopLength ∧ s.cht.bestRest = some best) ∧
    (∃ s : State, s.toStore.Calm ∧ s.pnc.state = .settling ∧ s.pnc.purpose = .sweep ∧ s.cht.settleWait ≠ none ∧ s.pnc.sweepClaimed = true ∧ s.AtTarget) ∧
    (∃ s : State, s.toStore.Calm ∧ s.pnc.state = .settling ∧ s.pnc.purpose = .sweep ∧ s.cht.settleWait ≠ none ∧ s.pnc.target = none) ∧
    (∃ s : State, s.toStore.Calm ∧ s.pnc.state = .settling ∧ s.pnc.purpose = .sweep ∧ s.cht.settleWait ≠ none ∧ s.MissedForGood) ∧
    (∃ (p g : Nat) (s : State), s.toStore.Calm ∧ s.pnc.state = .settling ∧ s.pnc.purpose = .sweep ∧ s.cht.settleWait ≠ none ∧ s.OffTarget ∧ s.pnc.missCount = 0 ∧ s.gateOpen = true ∧ s.cht.position = some p ∧ s.sweepRetarget p = some g) ∧
    (∃ s : State, s.toStore.Calm ∧ s.pnc.state = .settling ∧ s.pnc.purpose = .sweep ∧ s.cht.settleWait ≠ none ∧ s.OffTarget ∧ s.pnc.missCount ≠ 0) :=
  ⟨⟨holding, { shop with pnc.state := .nightLock, msu.mode := .night }, (by decide +kernel), (by decide +kernel), .mode, by decide +kernel⟩,
    ⟨head, { shop with pnc.state := .nightLock }, by decide +kernel⟩,
    ⟨head, shop, (by decide +kernel), (by decide +kernel), [1], by decide +kernel⟩,
    ⟨head, { running with lines.cords := 2 }, (by decide +kernel), (by decide +kernel), (calm_of (by decide +kernel) (by decide +kernel) (by decide +kernel)), by decide +kernel⟩,
    ⟨holding, { shop with msu.mode := .closing }, (by decide +kernel), (by decide +kernel), (calm_of (by decide +kernel) (by decide +kernel) (by decide +kernel)), by decide +kernel⟩,
    ⟨{ sweeping with pnc.sweepCount := 598 }, (calm_of (by decide +kernel) (by decide +kernel) (by decide +kernel)), by decide +kernel⟩,
    ⟨{ sweeping with pnc.sweepCount := 599 }, (calm_of (by decide +kernel) (by decide +kernel) (by decide +kernel)), ⟨100, 1⟩, by decide +kernel⟩,
    ⟨sweepSettling, (calm_of (by decide +kernel) (by decide +kernel) (by decide +kernel)), (by decide +kernel), (by decide +kernel), (by decide +kernel), (by decide +kernel), 396, 400, by decide +kernel⟩,
    ⟨{ sweepSettling with pnc.target := none }, (calm_of (by decide +kernel) (by decide +kernel) (by decide +kernel)), by decide +kernel⟩,
    ⟨{ sweepSettling with cht.position := none }, (calm_of (by decide +kernel) (by decide +kernel) (by decide +kernel)), (by decide +kernel), (by decide +kernel), (by decide +kernel), ⟨400, by decide +kernel, all_of (by decide +kernel)⟩, by decide +kernel⟩,
    ⟨395, 100, settlingAt .sweep 395, (calm_of (by decide +kernel) (by decide +kernel) (by decide +kernel)), (by decide +kernel), (by decide +kernel), (by decide +kernel), ⟨400, by decide +kernel, all_of (by decide +kernel)⟩, by decide +kernel⟩,
    ⟨{ sweepSettling with cht.position := some 405, pnc.missCount := 1 }, (calm_of (by decide +kernel) (by decide +kernel) (by decide +kernel)), (by decide +kernel), (by decide +kernel), (by decide +kernel), ⟨400, by decide +kernel, all_of (by decide +kernel)⟩, by decide +kernel⟩⟩

/-- A sweep at rest locks the chain and its step is DONE. -/
theorem test_sweep_locks : (fun t : State => (t.pnc.state, t.pnc.sweepClaimed, t.cpu.run.map Run.steps))
    (after .settleWaitExpiry sweepSettling) = (.nightLock, false, some [⟨.done, .none, []⟩]) := by
  decide +kernel

theorem witness_HandOrdersOfThePaternoster :
    (∃ (h : OrderHead) (s : State), s.Ready ∧ s.toStore.Calm ∧ s.pnc.state = .halted) ∧
    (∃ (h : OrderHead) (s : State), s.Ready ∧ s.toStore.Calm ∧ s.pnc.state = .estop ∧ s.NoCauseInput) ∧
    (∃ (h : OrderHead) (s : State), s.Ready ∧ s.toStore.Calm ∧ s.pnc.state = .estop ∧ (¬ s.NoCauseInput)) ∧
    (∃ (h : OrderHead) (s : State), s.Ready ∧ s.toStore.Calm ∧ s.msu.key = true ∧ s.pnc.state = .lockedOut ∧ s.NoCauseInput) ∧
    (∃ (h : OrderHead) (s : State), s.Ready ∧ s.toStore.Calm ∧ s.msu.key = false) :=
  ⟨⟨head, shop, (by decide +kernel), (calm_of (by decide +kernel) (by decide +kernel) (by decide +kernel)), by decide +kernel⟩,
    ⟨head, { estop with lines.guards := 2 }, (by decide +kernel), (calm_of (by decide +kernel) (by decide +kernel) (by decide +kernel)), by decide +kernel⟩,
    ⟨head, { estop with lines.cords := 1 }, (by decide +kernel), (calm_of (by decide +kernel) (by decide +kernel) (by decide +kernel)), by decide +kernel⟩,
    ⟨head, { shop with pnc.state := .lockedOut, pnc.startFaults := 3 }, (by decide +kernel), (calm_of (by decide +kernel) (by decide +kernel) (by decide +kernel)), by decide +kernel⟩,
    ⟨head, { shop with msu.key := false }, (by decide +kernel), (calm_of (by decide +kernel) (by decide +kernel) (by decide +kernel)), by decide +kernel⟩⟩

theorem witness_HaltStopsTheChain :
    (∃ (h : OrderHead) (s : State), s.Ready ∧ s.pnc.state ≠ .estop ∧ s.pnc.state ≠ .lockedOut ∧ s.pnc.state ≠ .powerStop) ∧
    (∃ (h : OrderHead) (s : State), s.Ready ∧ s.pnc.state = .estop) ∧
    (∃ (h : OrderHead) (s : State), s.Ready ∧ (s.pnc.state = .lockedOut ∨ s.pnc.state = .powerStop)) ∧
    (∃ (h : OrderHead) (s : State), s.Ready ∧ ∃ body : List Byte, body ≠ []) :=
  ⟨⟨head, running, by decide +kernel⟩,
    ⟨head, estop, by decide +kernel⟩,
    ⟨head, { shop with pnc.state := .lockedOut }, by decide +kernel⟩,
    ⟨head, shop, (by decide +kernel), [1], by decide +kernel⟩⟩

theorem witness_CausesStopTheChain :
    (∃ (l : Fin 8) (s : State), s.pnc.state ≠ .estop ∧ s.pnc.state ≠ .lockedOut ∧ s.pnc.state ≠ .powerStop ∧ s.lines.cords.getLsbD l.val = false ∧ s.cht.landings[l].present = true) ∧
    (∃ (l : Fin 8) (s : State), s.pnc.state ≠ .estop ∧ s.pnc.state ≠ .lockedOut ∧ s.pnc.state ≠ .powerStop ∧ s.lines.guards.getLsbD l.val = false ∧ s.cht.landings[l].present = true) ∧
    (∃ (l : Fin 8) (s : State), s.pnc.state ≠ .estop ∧ s.pnc.state ≠ .lockedOut ∧ s.pnc.state ≠ .powerStop ∧ s.lines.drvFault = false) ∧
    (∃ (l : Fin 8) (s : State), s.pnc.state ≠ .estop ∧ s.pnc.state ≠ .lockedOut ∧ s.pnc.state ≠ .powerStop ∧ s.lines.cords.getLsbD l.val = false ∧ s.cht.landings[l].present = false ∧ s.toStore.Calm) ∧
    (∃ (l : Fin 8) (s : State), s.pnc.state ≠ .estop ∧ s.pnc.state ≠ .lockedOut ∧ s.pnc.state ≠ .powerStop ∧ s.lines.guards.getLsbD l.val = false ∧ s.cht.landings[l].present = false ∧ s.toStore.Calm) ∧
    (∃ (s : State), s.toStore.Calm ∧ s.lines.drvFault = false ∧ s.pnc.state = .estop ∧ s.pnc.causes.driveFault = false) ∧
    (∃ (s : State), s.toStore.Calm ∧ s.lines.drvFault = false ∧ (s.pnc.state = .lockedOut ∨ s.pnc.state = .powerStop)) ∧
    (∃ (l : Fin 8) (s : State), s.toStore.Calm ∧ s.cht.landings[l].present = true ∧ s.lines.cords.getLsbD l.val = false ∧ s.pnc.state = .estop ∧ s.pnc.causes.cord.getLsbD l.val = false) ∧
    (∃ (l : Fin 8) (s : State), s.toStore.Calm ∧ s.cht.landings[l].present = true ∧ s.lines.cords.getLsbD l.val = false ∧ (s.pnc.state = .lockedOut ∨ s.pnc.state = .powerStop ∨ s.pnc.state = .estop ∧ s.pnc.causes.cord.getLsbD l.val = true)) ∧
    (∃ (l : Fin 8) (s : State), s.toStore.Calm ∧ s.cht.landings[l].present = true ∧ s.lines.guards.getLsbD l.val = false ∧ s.pnc.state = .estop ∧ s.pnc.causes.guard.getLsbD l.val = false) ∧
    (∃ (l : Fin 8) (s : State), s.toStore.Calm ∧ s.cht.landings[l].present = true ∧ s.lines.guards.getLsbD l.val = false ∧ (s.pnc.state = .lockedOut ∨ s.pnc.state = .powerStop ∨ s.pnc.state = .estop ∧ s.pnc.causes.guard.getLsbD l.val = true)) ∧
    (∃ s : State, s.pnc.state = .creeping ∧ s.pnc.creepTimer ≠ none) ∧
    (∃ (p t : Nat) (s : State), s.lines.drvReady = false ∧ s.fzu.fire = true ∧ s.pnc.state = .held ∧ s.msu.source = .mains ∧ s.gateOpen = true ∧ s.cht.position = some p ∧ s.fireTarget p = some t ∧ s.pendingSet &&& s.clearNow = 0 ∧ s.cpu.run = none) :=
  ⟨⟨0, running, by decide +kernel⟩,
    ⟨0, running, by decide +kernel⟩,
    ⟨0, running, by decide +kernel⟩,
    ⟨1, running, (by decide +kernel), (by decide +kernel), (by decide +kernel), (by decide +kernel), (by decide +kernel), (calm_of (by decide +kernel) (by decide +kernel) (by decide +kernel))⟩,
    ⟨1, running, (by decide +kernel), (by decide +kernel), (by decide +kernel), (by decide +kernel), (by decide +kernel), (calm_of (by decide +kernel) (by decide +kernel) (by decide +kernel))⟩,
    ⟨estop, (calm_of (by decide +kernel) (by decide +kernel) (by decide +kernel)), by decide +kernel⟩,
    ⟨{ shop with pnc.state := .powerStop }, (calm_of (by decide +kernel) (by decide +kernel) (by decide +kernel)), by decide +kernel⟩,
    ⟨0, estop, (calm_of (by decide +kernel) (by decide +kernel) (by decide +kernel)), by decide +kernel⟩,
    ⟨0, { estop with pnc.causes.cord := 1 }, (calm_of (by decide +kernel) (by decide +kernel) (by decide +kernel)), by decide +kernel⟩,
    ⟨0, estop, (calm_of (by decide +kernel) (by decide +kernel) (by decide +kernel)), by decide +kernel⟩,
    ⟨0, { shop with pnc.state := .powerStop }, (calm_of (by decide +kernel) (by decide +kernel) (by decide +kernel)), by decide +kernel⟩,
    ⟨{ creeping with pnc.creepTimer := some 3000 }, by decide +kernel⟩,
    ⟨250, 400, { withDoor { door .fire .releaseWait with landing := some 0 } fireShop with lines.drvReady := false, pnc.state := .held, cht.position := some 250 }, by decide +kernel⟩⟩

theorem witness_ShutterRecords :
    (∃ (kind : ShutterKind) (zone : Option (Fin 6)) (landing : Option (Fin 8)) (night openOnFire : Bool) (descent raise now : Nat) (openLim closedLim : Bool) (sh : Shutter), sh = Shutter.define kind zone landing night openOnFire descent raise openLim closedLim now ∧ openLim = true ∧ closedLim = false) ∧
    (∃ (kind : ShutterKind) (zone : Option (Fin 6)) (landing : Option (Fin 8)) (night openOnFire : Bool) (descent raise now : Nat) (openLim closedLim : Bool) (sh : Shutter), sh = Shutter.define kind zone landing night openOnFire descent raise openLim closedLim now ∧ openLim = false ∧ closedLim = true) ∧
    (∃ (kind : ShutterKind) (zone : Option (Fin 6)) (landing : Option (Fin 8)) (night openOnFire : Bool) (descent raise now : Nat) (openLim closedLim : Bool) (sh : Shutter), sh = Shutter.define kind zone landing night openOnFire descent raise openLim closedLim now ∧ openLim = closedLim ∧ kind = .fire) ∧
    (∃ (kind : ShutterKind) (zone : Option (Fin 6)) (landing : Option (Fin 8)) (night openOnFire : Bool) (descent raise now : Nat) (openLim closedLim : Bool) (sh : Shutter), sh = Shutter.define kind zone landing night openOnFire descent raise openLim closedLim now ∧ openLim = closedLim ∧ kind = .grille) ∧
    (∃ (kind : ShutterKind) (zone : Option (Fin 6)) (landing : Option (Fin 8)) (night openOnFire : Bool) (descent raise now : Nat) (openLim closedLim : Bool) (sh : Shutter), sh = Shutter.define kind zone landing night openOnFire descent raise openLim closedLim now) ∧
    (∃ (h : OrderHead) (body : List Byte) (i : Fin 16) (new : Shutter) (s : State), s.Ready ∧ s.toStore.Calm ∧ s.msu.key = true ∧ s.demand = .off ∧ body.length = 9 ∧ Body.fin 16 body 0 = some i ∧ (∀ sh, s.shc.stations[i] = some sh → sh.state ≠ .descending ∧ sh.state ≠ .raising ∧ sh.state ≠ .obstructed) ∧ Body.shutter body (s.lines.openLim.getLsbD i.val) (s.lines.closedLim.getLsbD i.val) s.tmb.ownTime = some new ∧ Body.flag body 1 = true) ∧
    (∃ (h : OrderHead) (body : List Byte) (i : Fin 16) (new : Shutter) (s : State), s.Ready ∧ s.toStore.Calm ∧ s.msu.key = true ∧ s.demand = .off ∧ body.length = 9 ∧ Body.fin 16 body 0 = some i ∧ (∀ sh, s.shc.stations[i] = some sh → sh.state ≠ .descending ∧ sh.state ≠ .raising ∧ sh.state ≠ .obstructed) ∧ Body.shutter body (s.lines.openLim.getLsbD i.val) (s.lines.closedLim.getLsbD i.val) s.tmb.ownTime = some new ∧ Body.flag body 1 = false) :=
  ⟨⟨.fire, none, none, false, false, 30, 30, 0, true, false, (Shutter.define .fire none none false false 30 30 true false 0), by decide +kernel⟩,
    ⟨.grille, none, none, false, false, 30, 30, 0, false, true, (Shutter.define .grille none none false false 30 30 false true 0), by decide +kernel⟩,
    ⟨.fire, none, none, false, false, 30, 30, 0, true, true, (Shutter.define .fire none none false false 30 30 true true 0), by decide +kernel⟩,
    ⟨.grille, none, none, false, false, 30, 30, 0, false, false, (Shutter.define .grille none none false false 30 30 false false 0), by decide +kernel⟩,
    ⟨.fire, none, none, false, false, 30, 30, 0, true, false, (Shutter.define .fire none none false false 30 30 true false 0), by decide +kernel⟩,
    ⟨head, [0, 1, 1, 255, 0, 1, 0, 30, 60], 0, (Shutter.define .grille none (some 0) true false 30 60 false false 0), shop, (by decide +kernel), (calm_of (by decide +kernel) (by decide +kernel) (by decide +kernel)), (by decide +kernel), (by decide +kernel), (by decide +kernel), (by decide +kernel), (all_of (by decide +kernel)), by decide +kernel⟩,
    ⟨head, [0, 0, 1, 255, 0, 1, 0, 30, 60], 0, (Shutter.define .grille none (some 0) true false 30 60 false false 0), withDoor (door .fire .opened) shop, (by decide +kernel), (calm_of (by decide +kernel) (by decide +kernel) (by decide +kernel)), (by decide +kernel), (by decide +kernel), (by decide +kernel), (by decide +kernel), (all_of (by decide +kernel)), by decide +kernel⟩⟩

/-- As `pause1`. -/
def pause9 : {n : Nat // n = 9} := ⟨9, by decide +kernel⟩

theorem witness_ShutterOrders :
    (∃ (h : OrderHead) (body : List Byte) (i : Fin 16) (sh : Shutter) (s : State), s.Ready ∧ s.MayHold h ∧ s.toStore.Calm ∧ body.length = 1 ∧ Body.fin 16 body 0 = some i ∧ s.shc.stations[i] = some sh ∧ sh.state = .closed) ∧
    (∃ (h : OrderHead) (body : List Byte) (i : Fin 16) (sh : Shutter) (s : State), s.Ready ∧ s.MayHold h ∧ s.toStore.Calm ∧ body.length = 1 ∧ Body.fin 16 body 0 = some i ∧ s.shc.stations[i] = some sh ∧ sh.kind = .fire ∧ sh.state = .opened ∧ (sh.landing ≠ none → s.demand = .off) ∧ (∀ l, sh.landing = some l → s.clearNow.getLsbD l.val = true)) ∧
    (∃ (h : OrderHead) (body : List Byte) (i : Fin 16) (sh : Shutter) (s : State), s.Ready ∧ s.MayHold h ∧ s.toStore.Calm ∧ body.length = 1 ∧ Body.fin 16 body 0 = some i ∧ s.shc.stations[i] = some sh ∧ sh.kind = .grille ∧ (sh.state = .opened ∨ sh.state = .haltedPart) ∧ (sh.landing ≠ none → s.demand = .off) ∧ (sh.state = .opened → ∀ l, sh.landing = some l → s.clearNow.getLsbD l.val = true) ∧ (s.lines.openLim.getLsbD i.val && s.lines.closedLim.getLsbD i.val) = false ∧ (s.msu.source = .mains ∨ s.msu.grillePermit = true)) ∧
    (∃ (h : OrderHead) (body : List Byte) (i : Fin 16) (sh : Shutter) (s : State), s.Ready ∧ s.MayHold h ∧ s.toStore.Calm ∧ body.length = 1 ∧ Body.fin 16 body 0 = some i ∧ s.shc.stations[i] = some sh ∧ sh.kind = .fire ∧ sh.state = .obstructed ∧ s.lines.edge.getLsbD i.val = false ∧ (sh.landing ≠ none → s.demand = .off)) ∧
    (∃ (h : OrderHead) (body : List Byte) (i : Fin 16) (sh : Shutter) (s : State), s.Ready ∧ s.MayHold h ∧ s.toStore.Calm ∧ body.length = 1 ∧ Body.fin 16 body 0 = some i ∧ s.shc.stations[i] = some sh ∧ sh.kind = .fire ∧ sh.state = .descending ∧ sh.has FaultKind.obstructedRepeat = false ∧ (sh.landing ≠ none → s.demand = .off)) ∧
    (∃ (h : OrderHead) (body : List Byte) (i : Fin 16) (sh : Shutter) (s : State), s.Ready ∧ s.MayHold h ∧ body.length = 1 ∧ Body.fin 16 body 0 = some i ∧ s.shc.stations[i] = some sh ∧ sh.kind = .fire ∧ sh.state = .releaseWait) ∧
    (∃ (h : OrderHead) (body : List Byte) (i : Fin 16) (sh : Shutter) (s : State), s.Ready ∧ s.MayHold h ∧ body.length = 1 ∧ Body.fin 16 body 0 = some i ∧ s.shc.stations[i] = some sh ∧ sh.kind = .grille ∧ sh.state ≠ .closed ∧ s.fzu.fire = true) ∧
    (∃ (h : OrderHead) (body : List Byte) (i : Fin 16) (sh : Shutter) (s : State), s.Ready ∧ s.MayHold h ∧ body.length = 1 ∧ Body.fin 16 body 0 = some i ∧ s.shc.stations[i] = some sh ∧ sh.kind = .fire ∧ (sh.state = .raising ∨ sh.state = .obstructed ∧ s.lines.edge.getLsbD i.val = true ∨ sh.state = .descending ∧ sh.has FaultKind.obstructedRepeat = true)) ∧
    (∃ (h : OrderHead) (body : List Byte) (i : Fin 16) (sh : Shutter) (s : State), s.Ready ∧ s.MayHold h ∧ body.length = 1 ∧ Body.fin 16 body 0 = some i ∧ s.shc.stations[i] = some sh ∧ sh.kind = .grille ∧ (sh.state = .raising ∨ sh.state = .descending) ∧ s.fzu.fire = false) ∧
    (∃ (h : OrderHead) (body : List Byte) (i : Fin 16) (sh : Shutter) (s : State), s.Ready ∧ s.MayHold h ∧ s.toStore.Calm ∧ body.length = 1 ∧ Body.fin 16 body 0 = some i ∧ s.shc.stations[i] = some sh ∧ sh.state = .opened) ∧
    (∃ (h : OrderHead) (body : List Byte) (i : Fin 16) (sh : Shutter) (s : State), s.Ready ∧ s.MayHold h ∧ s.toStore.Calm ∧ body.length = 1 ∧ Body.fin 16 body 0 = some i ∧ s.shc.stations[i] = some sh ∧ sh.kind = .fire ∧ s.zoneInFire sh = false ∧ (sh.state = .closed ∨ sh.state = .obstructed ∧ s.lines.edge.getLsbD i.val = false ∨ sh.state = .descending ∧ (sh.has FaultKind.descentSlow || sh.has FaultKind.magnetStuck) = true) ∧ s.lines.openLim.getLsbD i.val = false ∧ (sh.landing ≠ none → s.demand = .off) ∧ s.msu.source = .mains) ∧
    (∃ (h : OrderHead) (body : List Byte) (i : Fin 16) (sh : Shutter) (s : State), s.Ready ∧ s.MayHold h ∧ s.toStore.Calm ∧ body.length = 1 ∧ Body.fin 16 body 0 = some i ∧ s.shc.stations[i] = some sh ∧ sh.kind = .fire ∧ s.zoneInFire sh = false ∧ (sh.state = .closed ∨ sh.state = .obstructed ∧ s.lines.edge.getLsbD i.val = false ∨ sh.state = .descending ∧ (sh.has FaultKind.descentSlow || sh.has FaultKind.magnetStuck) = true) ∧ s.lines.openLim.getLsbD i.val = true ∧ s.lines.closedLim.getLsbD i.val = false ∧ (sh.landing ≠ none → s.demand = .off) ∧ s.msu.source = .mains) ∧
    (∃ (h : OrderHead) (body : List Byte) (i : Fin 16) (sh : Shutter) (s : State), s.Ready ∧ s.MayHold h ∧ s.toStore.Calm ∧ body.length = 1 ∧ Body.fin 16 body 0 = some i ∧ s.shc.stations[i] = some sh ∧ sh.kind = .grille ∧ (sh.state = .closed ∨ sh.state = .haltedPart) ∧ (s.lines.openLim.getLsbD i.val && s.lines.closedLim.getLsbD i.val) = false ∧ (sh.landing ≠ none → s.demand = .off) ∧ s.msu.source = .mains) ∧
    (∃ (h : OrderHead) (body : List Byte) (i : Fin 16) (sh : Shutter) (s : State), s.Ready ∧ s.MayHold h ∧ body.length = 1 ∧ Body.fin 16 body 0 = some i ∧ s.shc.stations[i] = some sh ∧ s.zoneInFire sh = true ∧ sh.kind = .fire ∧ sh.state ≠ .opened) ∧
    (∃ (h : OrderHead) (body : List Byte) (i : Fin 16) (sh : Shutter) (s : State), s.Ready ∧ s.MayHold h ∧ body.length = 1 ∧ Body.fin 16 body 0 = some i ∧ s.shc.stations[i] = some sh ∧ s.zoneInFire sh = true ∧ sh.kind = .grille ∧ sh.openOnFire = true ∧ s.fzu.fire = true ∧ (sh.state = .closed ∨ sh.state = .haltedPart) ∧ (s.lines.openLim.getLsbD i.val && s.lines.closedLim.getLsbD i.val) = false ∧ (sh.landing ≠ none → s.demand = .off) ∧ (s.msu.source = .mains ∨ s.msu.batteryLow = false)) ∧
    (∃ (h : OrderHead) (body : List Byte) (i : Fin 16) (sh : Shutter) (s : State), s.Ready ∧ Body.fin 16 body 0 = some i ∧ s.shc.stations[i] = some sh ∧ body.length = 1 ∧ sh.kind = .fire) ∧
    (∃ (h : OrderHead) (body : List Byte) (i : Fin 16) (sh : Shutter) (s : State), s.Ready ∧ Body.fin 16 body 0 = some i ∧ s.shc.stations[i] = some sh ∧ body.length = 1 ∧ sh.kind = .grille ∧ (sh.state = .opened ∨ sh.state = .closed ∨ sh.state = .haltedPart)) ∧
    (∃ (h : OrderHead) (body : List Byte) (i : Fin 16) (sh : Shutter) (s : State), s.Ready ∧ Body.fin 16 body 0 = some i ∧ s.shc.stations[i] = some sh ∧ body.length = 1 ∧ sh.kind = .grille ∧ sh.state = .descending ∧ s.toStore.Calm) ∧
    (∃ (h : OrderHead) (body : List Byte) (i : Fin 16) (sh : Shutter) (s : State), s.Ready ∧ Body.fin 16 body 0 = some i ∧ s.shc.stations[i] = some sh ∧ body.length = 1 ∧ sh.kind = .grille ∧ sh.state = .raising ∧ s.toStore.Calm) ∧
    (∃ (h : OrderHead) (body : List Byte) (i : Fin 16) (sh : Shutter) (s : State), s.Ready ∧ Body.fin 16 body 0 = some i ∧ s.shc.stations[i] = some sh ∧ body.length = 2 ∧ sh.state ≠ .descending ∧ sh.state ≠ .obstructed ∧ (s.lines.openLim.getLsbD i.val && s.lines.closedLim.getLsbD i.val) = false) :=
  ⟨⟨head, [0], 0, (door .fire .closed), (withDoor (door .fire .closed) shop), (by decide +kernel), (by decide +kernel), (calm_of (by decide +kernel) (by decide +kernel) (by decide +kernel)), by decide +kernel⟩,
    ⟨holding, [0], 0, { door .fire .opened with landing := some 0 }, { (withDoor { door .fire .opened with landing := some 0 } shop) with cht.settled := true }, (by decide +kernel), (by decide +kernel), (calm_of (by decide +kernel) (by decide +kernel) (by decide +kernel)), by decide +kernel⟩,
    ⟨head, [0], 0, (door .grille .opened), (withDoor (door .grille .opened) shop), (by decide +kernel), (by decide +kernel), (calm_of (by decide +kernel) (by decide +kernel) (by decide +kernel)), by decide +kernel⟩,
    ⟨holding, [0], 0, { door .fire .obstructed with obstr := 3, faults := 0x20, landing := some 0 }, (withDoor { door .fire .obstructed with obstr := 3, faults := 0x20, landing := some 0 } shop), (by decide +kernel), (by decide +kernel), (calm_of (by decide +kernel) (by decide +kernel) (by decide +kernel)), by decide +kernel⟩,
    ⟨holding, [0], 0, (door .fire .descending), (withDoor (door .fire .descending) shop), (by decide +kernel), (by decide +kernel), (calm_of (by decide +kernel) (by decide +kernel) (by decide +kernel)), by decide +kernel⟩,
    ⟨head, [0], 0, (door .fire .releaseWait), (withDoor (door .fire .releaseWait) shop), by decide +kernel⟩,
    ⟨head, [0], 0, (door .grille .haltedPart), (withDoor (door .grille .haltedPart) fireShop), by decide +kernel⟩,
    ⟨head, [0], 0, (door .fire .obstructed), { (withDoor (door .fire .obstructed) shop) with lines.edge := 1 }, by decide +kernel⟩,
    ⟨head, [0], 0, (door .grille .raising), (withDoor (door .grille .raising) shop), by decide +kernel⟩,
    ⟨head, [0], 0, (door .fire .opened), (withDoor (door .fire .opened) shop), (by decide +kernel), (by decide +kernel), (calm_of (by decide +kernel) (by decide +kernel) (by decide +kernel)), by decide +kernel⟩,
    ⟨holding, [0], 0, { door .fire .descending with faults := 4, landing := some 0 }, (withDoor { door .fire .descending with faults := 4, landing := some 0 } shop), (by decide +kernel), (by decide +kernel), (calm_of (by decide +kernel) (by decide +kernel) (by decide +kernel)), by decide +kernel⟩,
    ⟨holding, [0], 0, (door .fire .closed), { (withDoor (door .fire .closed) shop) with lines.openLim := 1 }, (by decide +kernel), (by decide +kernel), (calm_of (by decide +kernel) (by decide +kernel) (by decide +kernel)), by decide +kernel⟩,
    ⟨head, [0], 0, (door .grille .haltedPart), (withDoor (door .grille .haltedPart) shop), (by decide +kernel), (by decide +kernel), (calm_of (by decide +kernel) (by decide +kernel) (by decide +kernel)), by decide +kernel⟩,
    ⟨head, [0], 0, { door .fire .closed with zone := some 0 }, (withDoor { door .fire .closed with zone := some 0 } fireShop), by decide +kernel⟩,
    ⟨head, [0], 0, { door .grille .closed with zone := some 0, openOnFire := true }, (withDoor { door .grille .closed with zone := some 0, openOnFire := true } fireShop), by decide +kernel⟩,
    ⟨head, [0], 0, (door .fire .opened), (withDoor (door .fire .opened) shop), by decide +kernel⟩,
    ⟨head, [0], 0, (door .grille .closed), (withDoor (door .grille .closed) shop), by decide +kernel⟩,
    ⟨head, [0], 0, (door .grille .descending), (withDoor (door .grille .descending) shop), (by decide +kernel), (by decide +kernel), (by decide +kernel), (by decide +kernel), (by decide +kernel), (by decide +kernel), (calm_of (by decide +kernel) (by decide +kernel) (by decide +kernel))⟩,
    ⟨head, [0], 0, (door .grille .raising), (withDoor (door .grille .raising) shop), (by decide +kernel), (by decide +kernel), (by decide +kernel), (by decide +kernel), (by decide +kernel), (by decide +kernel), (calm_of (by decide +kernel) (by decide +kernel) (by decide +kernel))⟩,
    ⟨head, [0, 1], 0, { door .fire .opened with faults := 0x40 }, (withDoor { door .fire .opened with faults := 0x40 } shop), by decide +kernel⟩⟩

theorem witness_LimitsOfShutters :
    (∃ (i : Fin 16) (sh : Shutter) (s : State), s.toStore.Calm ∧ s.shc.stations[i] = some sh ∧ s.lines.openLim.getLsbD i.val = false ∧ s.lines.closedLim.getLsbD i.val = false ∧ sh.state = .raising) ∧
    (∃ (i : Fin 16) (sh : Shutter) (s : State), s.toStore.Calm ∧ s.shc.stations[i] = some sh ∧ s.lines.openLim.getLsbD i.val = false ∧ s.lines.closedLim.getLsbD i.val = false ∧ sh.state = .descending ∧ sh.kind = .fire ∧ sh.proving = true) ∧
    (∃ (i : Fin 16) (sh : Shutter) (s : State), s.toStore.Calm ∧ s.shc.stations[i] = some sh ∧ s.lines.openLim.getLsbD i.val = false ∧ s.lines.closedLim.getLsbD i.val = false ∧ (sh.state = .descending ∨ sh.state = .obstructed) ∧ sh.kind = .fire ∧ sh.proving = false) ∧
    (∃ (i : Fin 16) (sh : Shutter) (s : State), s.toStore.Calm ∧ s.shc.stations[i] = some sh ∧ s.lines.openLim.getLsbD i.val = false ∧ s.lines.closedLim.getLsbD i.val = false ∧ sh.state = .descending ∧ sh.kind = .grille) ∧
    (∃ (i : Fin 16) (sh : Shutter) (s : State), s.toStore.Calm ∧ s.shc.stations[i] = some sh ∧ s.lines.openLim.getLsbD i.val = false ∧ s.lines.closedLim.getLsbD i.val = false ∧ sh.state ≠ .raising) ∧
    (∃ (i : Fin 16) (sh : Shutter) (s : State), s.toStore.Calm ∧ s.shc.stations[i] = some sh ∧ s.lines.openLim.getLsbD i.val = false ∧ s.lines.closedLim.getLsbD i.val = false ∧ sh.state ≠ .descending ∧ (¬ (sh.kind = .fire ∧ sh.state = .obstructed))) ∧
    (∃ (i : Fin 16) (sh : Shutter) (s : State), s.toStore.Calm ∧ s.shc.stations[i] = some sh ∧ s.lines.closedLim.getLsbD i.val = true ∧ sh.kind = .grille ∧ sh.state = .closed) ∧
    (∃ (i : Fin 16) (sh : Shutter) (s : State), s.toStore.Calm ∧ s.shc.stations[i] = some sh ∧ s.lines.closedLim.getLsbD i.val = true ∧ sh.kind = .fire) ∧
    (∃ (i : Fin 16) (sh : Shutter) (conflict : List Offer) (s : State), s.toStore.Calm ∧ s.shc.stations[i] = some sh ∧ conflict = (if sh.has FaultKind.limitConflict = true then [] else [.notice (.shutterFault i FaultKind.limitConflict (sh.faults ||| FaultKind.limitConflict))]) ∧ s.lines.openLim.getLsbD i.val = true ∧ s.lines.closedLim.getLsbD i.val = false ∧ sh.kind = .grille ∧ (sh.state = .descending ∨ sh.state = .raising)) ∧
    (∃ (i : Fin 16) (sh : Shutter) (conflict : List Offer) (s : State), s.toStore.Calm ∧ s.shc.stations[i] = some sh ∧ conflict = (if sh.has FaultKind.limitConflict = true then [] else [.notice (.shutterFault i FaultKind.limitConflict (sh.faults ||| FaultKind.limitConflict))]) ∧ s.lines.openLim.getLsbD i.val = false ∧ s.lines.closedLim.getLsbD i.val = true ∧ sh.kind = .grille ∧ (sh.state = .descending ∨ sh.state = .raising)) ∧
    (∃ (i : Fin 16) (sh : Shutter) (conflict : List Offer) (s : State), s.toStore.Calm ∧ s.shc.stations[i] = some sh ∧ conflict = (if sh.has FaultKind.limitConflict = true then [] else [.notice (.shutterFault i FaultKind.limitConflict (sh.faults ||| FaultKind.limitConflict))]) ∧ s.lines.openLim.getLsbD i.val = true ∧ s.lines.closedLim.getLsbD i.val = false ∧ sh.kind = .fire ∧ sh.state ≠ .descending ∧ sh.state ≠ .obstructed) ∧
    (∃ (i : Fin 16) (sh : Shutter) (conflict : List Offer) (s : State), s.toStore.Calm ∧ s.shc.stations[i] = some sh ∧ conflict = (if sh.has FaultKind.limitConflict = true then [] else [.notice (.shutterFault i FaultKind.limitConflict (sh.faults ||| FaultKind.limitConflict))]) ∧ s.lines.openLim.getLsbD i.val = false ∧ s.lines.closedLim.getLsbD i.val = true ∧ sh.kind = .fire ∧ sh.state ≠ .raising) ∧
    (∃ (i : Fin 16) (sh : Shutter) (conflict : List Offer) (s : State), s.toStore.Calm ∧ s.shc.stations[i] = some sh ∧ conflict = (if sh.has FaultKind.limitConflict = true then [] else [.notice (.shutterFault i FaultKind.limitConflict (sh.faults ||| FaultKind.limitConflict))]) ∧ s.lines.openLim.getLsbD i.val = true ∧ s.lines.closedLim.getLsbD i.val = false ∧ sh.kind = .fire ∧ (sh.state = .descending ∨ sh.state = .obstructed) ∧ sh.proving = false) ∧
    (∃ (i : Fin 16) (sh : Shutter) (conflict : List Offer) (s : State), s.toStore.Calm ∧ s.shc.stations[i] = some sh ∧ conflict = (if sh.has FaultKind.limitConflict = true then [] else [.notice (.shutterFault i FaultKind.limitConflict (sh.faults ||| FaultKind.limitConflict))]) ∧ ∃ faults, s.lines.openLim.getLsbD i.val = true ∧ s.lines.closedLim.getLsbD i.val = false ∧ sh.kind = .fire ∧ sh.state = .descending ∧ sh.proving = true ∧ faults = sh.faults &&& ~~~ FaultKind.notProven ||| FaultKind.limitConflict) ∧
    (∃ (i : Fin 16) (sh : Shutter) (conflict : List Offer) (s : State), s.toStore.Calm ∧ s.shc.stations[i] = some sh ∧ conflict = (if sh.has FaultKind.limitConflict = true then [] else [.notice (.shutterFault i FaultKind.limitConflict (sh.faults ||| FaultKind.limitConflict))]) ∧ s.lines.openLim.getLsbD i.val = false ∧ s.lines.closedLim.getLsbD i.val = true ∧ sh.kind = .fire ∧ sh.state = .raising) ∧
    (∃ (i : Fin 16) (sh : Shutter) (conflict : List Offer) (s : State), s.toStore.Calm ∧ s.shc.stations[i] = some sh ∧ conflict = (if sh.has FaultKind.limitConflict = true then [] else [.notice (.shutterFault i FaultKind.limitConflict (sh.faults ||| FaultKind.limitConflict))]) ∧ s.lines.openLim.getLsbD i.val = true ∧ s.lines.closedLim.getLsbD i.val = false ∧ sh.kind = .grille ∧ sh.state ≠ .descending ∧ sh.state ≠ .raising) ∧
    (∃ (i : Fin 16) (sh : Shutter) (conflict : List Offer) (s : State), s.toStore.Calm ∧ s.shc.stations[i] = some sh ∧ conflict = (if sh.has FaultKind.limitConflict = true then [] else [.notice (.shutterFault i FaultKind.limitConflict (sh.faults ||| FaultKind.limitConflict))]) ∧ s.lines.openLim.getLsbD i.val = false ∧ s.lines.closedLim.getLsbD i.val = true ∧ sh.kind = .grille ∧ sh.state ≠ .descending ∧ sh.state ≠ .raising) ∧
    (∃ (i : Fin 16) (sh : Shutter) (lost : List Offer) (s : State), s.toStore.Calm ∧ s.shc.stations[i] = some sh ∧ s.lines.openLim.getLsbD i.val = true ∧ lost = (if sh.has FaultKind.limitLost = true then [] else [.notice (.shutterFault i FaultKind.limitLost (sh.faults ||| FaultKind.limitLost))]) ∧ sh.state = .descending) ∧
    (∃ (i : Fin 16) (sh : Shutter) (lost : List Offer) (s : State), s.toStore.Calm ∧ s.shc.stations[i] = some sh ∧ s.lines.openLim.getLsbD i.val = true ∧ lost = (if sh.has FaultKind.limitLost = true then [] else [.notice (.shutterFault i FaultKind.limitLost (sh.faults ||| FaultKind.limitLost))]) ∧ sh.kind = .fire ∧ sh.state = .opened ∧ (sh.landing ≠ none → s.demand = .off)) ∧
    (∃ (i : Fin 16) (sh : Shutter) (lost : List Offer) (s : State), s.toStore.Calm ∧ s.shc.stations[i] = some sh ∧ s.lines.openLim.getLsbD i.val = true ∧ lost = (if sh.has FaultKind.limitLost = true then [] else [.notice (.shutterFault i FaultKind.limitLost (sh.faults ||| FaultKind.limitLost))]) ∧ sh.kind = .grille ∧ sh.state = .opened ∧ (sh.landing ≠ none → s.demand = .off)) ∧
    (∃ (i : Fin 16) (sh : Shutter) (lost : List Offer) (s : State), s.toStore.Calm ∧ s.shc.stations[i] = some sh ∧ s.lines.openLim.getLsbD i.val = true ∧ lost = (if sh.has FaultKind.limitLost = true then [] else [.notice (.shutterFault i FaultKind.limitLost (sh.faults ||| FaultKind.limitLost))]) ∧ sh.kind = .fire ∧ sh.state = .opened ∧ sh.landing ≠ none ∧ s.demand ≠ .off) ∧
    (∃ (i : Fin 16) (sh : Shutter) (lost : List Offer) (s : State), s.toStore.Calm ∧ s.shc.stations[i] = some sh ∧ s.lines.openLim.getLsbD i.val = true ∧ lost = (if sh.has FaultKind.limitLost = true then [] else [.notice (.shutterFault i FaultKind.limitLost (sh.faults ||| FaultKind.limitLost))]) ∧ sh.kind = .grille ∧ sh.state = .opened ∧ sh.landing ≠ none ∧ s.demand ≠ .off) :=
  ⟨⟨0, (door .fire .raising), (withDoor (door .fire .raising) shop), (calm_of (by decide +kernel) (by decide +kernel) (by decide +kernel)), by decide +kernel⟩,
    ⟨0, { door .fire .descending with proving := true, descent := .running 0 0, faults := FaultKind.notProven }, (withDoor { door .fire .descending with proving := true, descent := .running 0 0, faults := FaultKind.notProven } shop), (calm_of (by decide +kernel) (by decide +kernel) (by decide +kernel)), by decide +kernel⟩,
    ⟨0, (door .fire .obstructed), (withDoor (door .fire .obstructed) shop), (calm_of (by decide +kernel) (by decide +kernel) (by decide +kernel)), by decide +kernel⟩,
    ⟨0, { door .grille .descending with faults := FaultKind.notProven }, (withDoor { door .grille .descending with faults := FaultKind.notProven } shop), (calm_of (by decide +kernel) (by decide +kernel) (by decide +kernel)), by decide +kernel⟩,
    ⟨0, (door .fire .opened), (withDoor (door .fire .opened) shop), (calm_of (by decide +kernel) (by decide +kernel) (by decide +kernel)), by decide +kernel⟩,
    ⟨0, (door .grille .closed), (withDoor (door .grille .closed) shop), (calm_of (by decide +kernel) (by decide +kernel) (by decide +kernel)), by decide +kernel⟩,
    ⟨0, (door .grille .closed), { (withDoor (door .grille .closed) shop) with lines.closedLim := 1 }, (calm_of (by decide +kernel) (by decide +kernel) (by decide +kernel)), by decide +kernel⟩,
    ⟨0, (door .fire .closed), { (withDoor (door .fire .closed) shop) with lines.closedLim := 1 }, (calm_of (by decide +kernel) (by decide +kernel) (by decide +kernel)), by decide +kernel⟩,
    ⟨0, (door .grille .raising), [.notice (.shutterFault 0 FaultKind.limitConflict FaultKind.limitConflict)], { (withDoor (door .grille .raising) shop) with lines.openLim := 1 }, (calm_of (by decide +kernel) (by decide +kernel) (by decide +kernel)), by decide +kernel⟩,
    ⟨0, (door .grille .descending), [.notice (.shutterFault 0 FaultKind.limitConflict FaultKind.limitConflict)], { (withDoor (door .grille .descending) shop) with lines.closedLim := 1 }, (calm_of (by decide +kernel) (by decide +kernel) (by decide +kernel)), by decide +kernel⟩,
    ⟨0, (door .fire .raising), [.notice (.shutterFault 0 FaultKind.limitConflict FaultKind.limitConflict)], { (withDoor (door .fire .raising) shop) with lines.openLim := 1 }, (calm_of (by decide +kernel) (by decide +kernel) (by decide +kernel)), by decide +kernel⟩,
    ⟨0, (door .fire .closed), [.notice (.shutterFault 0 FaultKind.limitConflict FaultKind.limitConflict)], { (withDoor (door .fire .closed) shop) with lines.closedLim := 1 }, (calm_of (by decide +kernel) (by decide +kernel) (by decide +kernel)), by decide +kernel⟩,
    ⟨0, (door .fire .descending), [.notice (.shutterFault 0 FaultKind.limitConflict FaultKind.limitConflict)], { (withDoor (door .fire .descending) shop) with lines.openLim := 1 }, (calm_of (by decide +kernel) (by decide +kernel) (by decide +kernel)), by decide +kernel⟩,
    ⟨0, { door .fire .descending with proving := true, descent := .running 0 0, faults := FaultKind.notProven }, [.notice (.shutterFault 0 FaultKind.limitConflict (FaultKind.notProven ||| FaultKind.limitConflict))], { (withDoor { door .fire .descending with proving := true, descent := .running 0 0, faults := FaultKind.notProven } shop) with lines.openLim := 1 }, (calm_of (by decide +kernel) (by decide +kernel) (by decide +kernel)), (by decide +kernel), (by decide +kernel), FaultKind.limitConflict, by decide +kernel⟩,
    ⟨0, (door .fire .raising), [.notice (.shutterFault 0 FaultKind.limitConflict FaultKind.limitConflict)], { (withDoor (door .fire .raising) shop) with lines.closedLim := 1 }, (calm_of (by decide +kernel) (by decide +kernel) (by decide +kernel)), by decide +kernel⟩,
    ⟨0, (door .grille .opened), [.notice (.shutterFault 0 FaultKind.limitConflict FaultKind.limitConflict)], { (withDoor (door .grille .opened) shop) with lines.openLim := 1 }, (calm_of (by decide +kernel) (by decide +kernel) (by decide +kernel)), by decide +kernel⟩,
    ⟨0, (door .grille .closed), [.notice (.shutterFault 0 FaultKind.limitConflict FaultKind.limitConflict)], { (withDoor (door .grille .closed) shop) with lines.closedLim := 1 }, (calm_of (by decide +kernel) (by decide +kernel) (by decide +kernel)), by decide +kernel⟩,
    ⟨0, (door .fire .descending), [.notice (.shutterFault 0 FaultKind.limitLost FaultKind.limitLost)], { (withDoor (door .fire .descending) shop) with lines.openLim := 1 }, (calm_of (by decide +kernel) (by decide +kernel) (by decide +kernel)), by decide +kernel⟩,
    ⟨0, { door .fire .opened with landing := some 0 }, [.notice (.shutterFault 0 FaultKind.limitLost FaultKind.limitLost)], { (withDoor { door .fire .opened with landing := some 0 } shop) with lines.openLim := 1 }, (calm_of (by decide +kernel) (by decide +kernel) (by decide +kernel)), by decide +kernel⟩,
    ⟨0, (door .grille .opened), [.notice (.shutterFault 0 FaultKind.limitLost FaultKind.limitLost)], { (withDoor (door .grille .opened) shop) with lines.openLim := 1 }, (calm_of (by decide +kernel) (by decide +kernel) (by decide +kernel)), by decide +kernel⟩,
    ⟨0, { door .fire .opened with landing := some 0 }, [.notice (.shutterFault 0 FaultKind.limitLost FaultKind.limitLost)], { (withDoor { door .fire .opened with landing := some 0 } running) with lines.openLim := 1 }, (calm_of (by decide +kernel) (by decide +kernel) (by decide +kernel)), by decide +kernel⟩,
    ⟨0, { door .grille .opened with landing := some 0 }, [.notice (.shutterFault 0 FaultKind.limitLost FaultKind.limitLost)], { (withDoor { door .grille .opened with landing := some 0 } running) with lines.openLim := 1 }, (calm_of (by decide +kernel) (by decide +kernel) (by decide +kernel)), by decide +kernel⟩⟩

theorem witness_EdgesObstructAndRetry :
    (∃ (i : Fin 16) (sh : Shutter) (s : State), s.toStore.Calm ∧ s.shc.stations[i] = some sh ∧ s.lines.edge.getLsbD i.val = false ∧ sh.kind = .fire ∧ sh.state = .descending ∧ sh.obstr ≠ 2) ∧
    (∃ (i : Fin 16) (sh : Shutter) (s : State), s.toStore.Calm ∧ s.shc.stations[i] = some sh ∧ s.lines.edge.getLsbD i.val = false ∧ sh.kind = .fire ∧ sh.state = .descending ∧ sh.obstr = 2) ∧
    (∃ (i : Fin 16) (sh : Shutter) (s : State), s.toStore.Calm ∧ s.shc.stations[i] = some sh ∧ s.lines.edge.getLsbD i.val = false ∧ sh.kind = .grille ∧ sh.state = .descending) ∧
    (∃ (i : Fin 16) (sh : Shutter) (s : State), s.toStore.Calm ∧ s.shc.stations[i] = some sh ∧ s.lines.edge.getLsbD i.val = true ∧ sh.kind = .fire ∧ sh.state = .obstructed ∧ sh.obstr < 3) ∧
    (∃ (i : Fin 16) (sh : Shutter) (s : State), s.toStore.Calm ∧ s.shc.stations[i] = some sh ∧ sh.edgeClear ≠ none ∧ sh.state = .obstructed ∧ (sh.landing = none ∨ s.demand = .off)) ∧
    (∃ (i : Fin 16) (sh : Shutter) (s : State), s.toStore.Calm ∧ s.shc.stations[i] = some sh ∧ sh.edgeClear ≠ none ∧ sh.state = .obstructed ∧ sh.landing ≠ none ∧ s.demand ≠ .off) :=
  ⟨⟨0, { door .fire .descending with descent := .running 0 0 }, (withDoor { door .fire .descending with descent := .running 0 0 } shop), (calm_of (by decide +kernel) (by decide +kernel) (by decide +kernel)), by decide +kernel⟩,
    ⟨0, { door .fire .descending with obstr := 2 }, (withDoor { door .fire .descending with obstr := 2 } shop), (calm_of (by decide +kernel) (by decide +kernel) (by decide +kernel)), by decide +kernel⟩,
    ⟨0, (door .grille .descending), (withDoor (door .grille .descending) shop), (calm_of (by decide +kernel) (by decide +kernel) (by decide +kernel)), by decide +kernel⟩,
    ⟨0, { door .fire .obstructed with obstr := 1 }, { (withDoor { door .fire .obstructed with obstr := 1 } shop) with lines.edge := 1 }, (calm_of (by decide +kernel) (by decide +kernel) (by decide +kernel)), by decide +kernel⟩,
    ⟨0, { door .fire .obstructed with edgeClear := some 300, obstr := 1 }, (withDoor { door .fire .obstructed with edgeClear := some 300, obstr := 1 } shop), (calm_of (by decide +kernel) (by decide +kernel) (by decide +kernel)), by decide +kernel⟩,
    ⟨0, { door .fire .obstructed with edgeClear := some 300, obstr := 1, landing := some 0 }, (withDoor { door .fire .obstructed with edgeClear := some 300, obstr := 1, landing := some 0 } running), (calm_of (by decide +kernel) (by decide +kernel) (by decide +kernel)), by decide +kernel⟩⟩

theorem witness_ShutterTimersFault :
    (∃ (i : Fin 16) (sh : Shutter) (s : State), s.toStore.Calm ∧ s.shc.stations[i] = some sh ∧ ∃ a b, sh.descent = .running a b ∧ sh.state = .descending ∧ sh.kind = .fire ∧ sh.has FaultKind.descentSlow = false) ∧
    (∃ (i : Fin 16) (sh : Shutter) (s : State), s.toStore.Calm ∧ s.shc.stations[i] = some sh ∧ ∃ a b, sh.descent = .running a b ∧ sh.state = .descending ∧ sh.kind = .grille) ∧
    (∃ (i : Fin 16) (sh : Shutter) (s : State), s.toStore.Calm ∧ s.shc.stations[i] = some sh ∧ sh.magnetCheck ≠ none ∧ s.lines.openLim.getLsbD i.val = true) ∧
    (∃ (i : Fin 16) (sh : Shutter) (s : State), s.toStore.Calm ∧ s.shc.stations[i] = some sh ∧ sh.magnetCheck ≠ none ∧ s.lines.openLim.getLsbD i.val = false) ∧
    (∃ (i : Fin 16) (sh : Shutter) (s : State), s.toStore.Calm ∧ s.shc.stations[i] = some sh ∧ sh.raiseTimer ≠ none ∧ sh.state = .raising ∧ sh.kind = .fire) ∧
    (∃ (i : Fin 16) (sh : Shutter) (s : State), s.toStore.Calm ∧ s.shc.stations[i] = some sh ∧ sh.raiseTimer ≠ none ∧ sh.state = .raising ∧ sh.kind = .grille) :=
  ⟨⟨0, { door .fire .descending with descent := .running 0 0 }, (withDoor { door .fire .descending with descent := .running 0 0 } shop), (calm_of (by decide +kernel) (by decide +kernel) (by decide +kernel)), (by decide +kernel), 0, 0, by decide +kernel⟩,
    ⟨0, { door .grille .descending with descent := .running 0 0 }, (withDoor { door .grille .descending with descent := .running 0 0 } shop), (calm_of (by decide +kernel) (by decide +kernel) (by decide +kernel)), (by decide +kernel), 0, 0, by decide +kernel⟩,
    ⟨0, { door .fire .descending with magnetCheck := some 200 }, { (withDoor { door .fire .descending with magnetCheck := some 200 } shop) with lines.openLim := 1 }, (calm_of (by decide +kernel) (by decide +kernel) (by decide +kernel)), by decide +kernel⟩,
    ⟨0, { door .fire .descending with magnetCheck := some 200 }, (withDoor { door .fire .descending with magnetCheck := some 200 } shop), (calm_of (by decide +kernel) (by decide +kernel) (by decide +kernel)), by decide +kernel⟩,
    ⟨0, { door .fire .raising with raiseTimer := some 6000 }, (withDoor { door .fire .raising with raiseTimer := some 6000 } shop), (calm_of (by decide +kernel) (by decide +kernel) (by decide +kernel)), by decide +kernel⟩,
    ⟨0, { door .grille .raising with raiseTimer := some 6000 }, (withDoor { door .grille .raising with raiseTimer := some 6000 } shop), (calm_of (by decide +kernel) (by decide +kernel) (by decide +kernel)), by decide +kernel⟩⟩

theorem witness_ZonesMove :
    (∃ (z : Fin 6) (s : State), s.FireFollowsZones ∧ s.lines.zoneIn.getLsbD z.val = false) ∧
    (∃ (z : Fin 6) (s : State), s.FireFollowsZones ∧ s.lines.zoneIn.getLsbD z.val = true) ∧
    (∃ (h : OrderHead) (body : List Byte) (z : Fin 6) (s : State), s.Ready ∧ s.FireFollowsZones ∧ body.length = 1 ∧ Body.fin 6 body 0 = some z ∧ s.fzu.zones[z].enabled = true) ∧
    (∃ (h : OrderHead) (body : List Byte) (z : Fin 6) (s : State), s.Ready ∧ s.FireFollowsZones ∧ body.length = 1 ∧ Body.fin 6 body 0 = some z ∧ s.fzu.zones[z].enabled = false) ∧
    (∃ (h : OrderHead) (body : List Byte) (z : Fin 6) (s : State), s.Ready ∧ s.FireFollowsZones ∧ body.length = 1 ∧ Body.fin 6 body 0 = some z ∧ (s.fzu.zones[z].state = .standing ∨ s.fzu.zones[z].state = .alarmed ∧ s.fzu.zones[z].declared = true ∧ s.lines.zoneIn.getLsbD z.val = false)) ∧
    (∃ (h : OrderHead) (body : List Byte) (z : Fin 6) (s : State), s.Ready ∧ s.FireFollowsZones ∧ body.length = 1 ∧ Body.fin 6 body 0 = some z ∧ (s.fzu.zones[z].state = .quiet ∨ s.fzu.zones[z].state = .alarmed ∧ (s.fzu.zones[z].declared = false ∨ s.lines.zoneIn.getLsbD z.val = true))) ∧
    (∃ (h : OrderHead) (body : List Byte) (z : Fin 6) (s : State), s.Ready ∧ s.FireFollowsZones ∧ body.length = 1 ∧ Body.fin 6 body 0 = some z ∧ s.msu.key = true ∧ s.fzu.zones[z].enabled = true ∧ s.fzu.zones[z].state = .quiet) ∧
    (∃ (h : OrderHead) (body : List Byte) (z : Fin 6) (s : State), s.Ready ∧ s.FireFollowsZones ∧ body.length = 1 ∧ Body.fin 6 body 0 = some z ∧ s.msu.key = true ∧ s.fzu.zones[z].enabled = true ∧ s.fzu.zones[z].state ≠ .quiet) ∧
    (∃ (h : OrderHead) (body : List Byte) (z : Fin 6) (s : State), s.Ready ∧ s.FireFollowsZones ∧ body.length = 1 ∧ Body.fin 6 body 0 = some z ∧ s.msu.key = true ∧ s.fzu.zones[z].enabled = false) ∧
    (∃ (h : OrderHead) (body : List Byte) (z : Fin 6) (s : State), s.Ready ∧ s.FireFollowsZones ∧ body.length = 1 ∧ Body.fin 6 body 0 = some z ∧ s.msu.key = true ∧ s.fzu.zones[z].enabled = true) ∧
    (∃ (h : OrderHead) (body : List Byte) (z : Fin 6) (s : State), s.Ready ∧ s.FireFollowsZones ∧ body.length = 1 ∧ Body.fin 6 body 0 = some z ∧ s.msu.key = false) :=
  ⟨⟨0, shop, by decide +kernel⟩,
    ⟨0, { (withZone ⟨true, 1, .alarmed, false⟩ shop) with lines.zoneIn := 1 }, by decide +kernel⟩,
    ⟨head, [0], 0, shop, by decide +kernel⟩,
    ⟨head, [0], 0, (withZone ⟨false, 1, .quiet, false⟩ shop), by decide +kernel⟩,
    ⟨head, [0], 0, (withZone ⟨true, 1, .standing, false⟩ shop), by decide +kernel⟩,
    ⟨head, [0], 0, shop, by decide +kernel⟩,
    ⟨head, [0], 0, shop, by decide +kernel⟩,
    ⟨head, [0], 0, (withZone ⟨true, 1, .standing, false⟩ shop), by decide +kernel⟩,
    ⟨head, [0], 0, (withZone ⟨false, 1, .quiet, false⟩ shop), by decide +kernel⟩,
    ⟨head, [0], 0, shop, by decide +kernel⟩,
    ⟨head, [0], 0, { shop with msu.key := false }, by decide +kernel⟩⟩

theorem witness_ZoneRecordsAndFireSettings :
    (∃ (h : OrderHead) (body : List Byte) (s : State), s.Ready ∧ ∃ (z : Fin 6) (l : BitVec 10), body.length = 3 ∧ s.msu.key = true ∧ Body.fin 6 body 0 = some z ∧ Body.lines body 1 = some l ∧ s.fzu.zones[z].state = .quiet) ∧
    (∃ (h : OrderHead) (body : List Byte) (s : State), s.Ready ∧ ∃ (z : Fin 6) (l : BitVec 10), body.length = 3 ∧ s.msu.key = true ∧ Body.fin 6 body 0 = some z ∧ Body.lines body 1 = some l ∧ s.fzu.zones[z].state ≠ .quiet) ∧
    (∃ (h : OrderHead) (body : List Byte) (s : State), s.Ready ∧ ∃ (wait hold rep : Nat) (script : Option (Fin 16)) (code : BellCode), body.length = 8 ∧ s.msu.key = true ∧ wait = Body.byte body 0 ∧ hold = Body.byte body 1 ∧ Body.optFin 16 body 2 = some script ∧ Body.bellCode body 3 = some code ∧ rep = Body.byte body 7 ∧ 2 ≤ wait ∧ wait ≤ 60 ∧ hold ≤ 30 ∧ 10 ≤ rep ∧ rep ≤ 120) ∧
    (∃ (h : OrderHead) (body : List Byte) (s : State), s.Ready ∧ body.length = 3 ∧ s.msu.key = false) ∧
    (∃ (h : OrderHead) (body : List Byte) (s : State), s.Ready ∧ body.length = 8 ∧ s.msu.key = false) ∧
    (∃ (h : OrderHead) (body : List Byte) (s : State), s.Ready ∧ ∃ z : Fin 6, body.length = 1 ∧ Body.fin 6 body 0 = some z) :=
  ⟨⟨head, [0, 0, 3], shop, (by decide +kernel), 0, 3, by decide +kernel⟩,
    ⟨head, [0, 0, 3], fireShop, (by decide +kernel), 0, 3, by decide +kernel⟩,
    ⟨head, [10, 5, 255, 3, 3, 0, 0, 30], shop, (by decide +kernel), 10, 5, 30, none, [3, 3], by decide +kernel⟩,
    ⟨head, [0, 0, 3], { shop with msu.key := false }, by decide +kernel⟩,
    ⟨head, [10, 5, 255, 3, 3, 0, 0, 30], { shop with msu.key := false }, by decide +kernel⟩,
    ⟨head, [0], shop, (by decide +kernel), 0, by decide +kernel⟩⟩

/-- As `pause1`. -/
def pause10 : {n : Nat // n = 10} := ⟨10, by decide +kernel⟩

theorem witness_FireConditionActsOnTheStore :
    (∃ (z : Fin 6) (s : State), s.FireFollowsZones ∧ s.fzu.fire = false ∧ s.lines.zoneIn.getLsbD z.val = false ∧ s.fzu.zones[z].enabled = true) ∧
    (∃ (z : Fin 6) (i : Fin 16) (sh : Shutter) (s : State), s.FireFollowsZones ∧ s.lines.zoneIn.getLsbD z.val = false ∧ s.fzu.zones[z].enabled = true ∧ s.fzu.zones[z].state ≠ .alarmed ∧ s.shc.stations[i] = some sh ∧ sh.retryWait = false ∧ sh.kind = .fire ∧ sh.zone = some z ∧ sh.state = .opened ∧ s.landingClear sh = true) ∧
    (∃ (z : Fin 6) (i : Fin 16) (sh : Shutter) (s : State), s.FireFollowsZones ∧ s.lines.zoneIn.getLsbD z.val = false ∧ s.fzu.zones[z].enabled = true ∧ s.fzu.zones[z].state ≠ .alarmed ∧ s.shc.stations[i] = some sh ∧ sh.retryWait = false ∧ sh.kind = .fire ∧ sh.zone = some z ∧ sh.state = .opened ∧ s.landingClear sh = false ∧ s.fzu.deadline = .spent) ∧
    (∃ (z : Fin 6) (i : Fin 16) (sh : Shutter) (s : State), s.FireFollowsZones ∧ s.lines.zoneIn.getLsbD z.val = false ∧ s.fzu.zones[z].enabled = true ∧ s.fzu.zones[z].state ≠ .alarmed ∧ s.shc.stations[i] = some sh ∧ sh.retryWait = false ∧ sh.kind = .fire ∧ sh.zone = some z ∧ sh.state = .opened ∧ s.landingClear sh = false ∧ s.fzu.deadline ≠ .spent) ∧
    (∃ (z : Fin 6) (i : Fin 16) (sh : Shutter) (s : State), s.FireFollowsZones ∧ s.lines.zoneIn.getLsbD z.val = false ∧ s.fzu.zones[z].enabled = true ∧ s.fzu.zones[z].state ≠ .alarmed ∧ s.shc.stations[i] = some sh ∧ sh.retryWait = false ∧ sh.kind = .fire ∧ sh.zone = some z ∧ sh.state = .raising) ∧
    (∃ (z : Fin 6) (i : Fin 16) (sh : Shutter) (s : State), s.FireFollowsZones ∧ s.lines.zoneIn.getLsbD z.val = false ∧ s.fzu.zones[z].enabled = true ∧ s.fzu.zones[z].state ≠ .alarmed ∧ s.shc.stations[i] = some sh ∧ sh.retryWait = false ∧ sh.kind = .grille ∧ sh.openOnFire = true ∧ (sh.zone = some z ∨ s.zoneInFire sh = true) ∧ (sh.state = .closed ∨ sh.state = .haltedPart ∨ sh.state = .descending) ∧ (sh.landing = none ∨ s.demand = .off) ∧ (s.msu.source = .mains ∨ s.msu.batteryLow = false)) ∧
    (∃ (z : Fin 6) (i : Fin 16) (sh : Shutter) (s : State), s.FireFollowsZones ∧ s.lines.zoneIn.getLsbD z.val = false ∧ s.fzu.zones[z].enabled = true ∧ s.fzu.zones[z].state ≠ .alarmed ∧ s.shc.stations[i] = some sh ∧ sh.retryWait = false ∧ sh.kind = .grille ∧ sh.openOnFire = true ∧ (sh.zone = some z ∨ s.zoneInFire sh = true) ∧ (sh.state = .closed ∨ sh.state = .haltedPart ∨ sh.state = .descending) ∧ (sh.landing = none ∨ s.demand = .off) ∧ s.msu.source = .reserve ∧ s.msu.batteryLow = true) ∧
    (∃ (z : Fin 6) (i : Fin 16) (sh : Shutter) (s : State), s.FireFollowsZones ∧ s.lines.zoneIn.getLsbD z.val = false ∧ s.fzu.zones[z].enabled = true ∧ s.fzu.zones[z].state ≠ .alarmed ∧ s.shc.stations[i] = some sh ∧ sh.retryWait = false ∧ sh.kind = .grille ∧ sh.openOnFire = true ∧ (sh.zone = some z ∨ s.zoneInFire sh = true) ∧ (sh.state = .closed ∨ sh.state = .haltedPart ∨ sh.state = .descending) ∧ sh.landing ≠ none ∧ s.demand ≠ .off ∧ s.msu.source = .mains) ∧
    (∃ (z : Fin 6) (i : Fin 16) (sh : Shutter) (s : State), s.FireFollowsZones ∧ s.lines.zoneIn.getLsbD z.val = false ∧ s.fzu.zones[z].enabled = true ∧ s.fzu.zones[z].state ≠ .alarmed ∧ s.shc.stations[i] = some sh ∧ sh.retryWait = false ∧ sh.kind = .grille ∧ sh.state = .descending ∧ (sh.openOnFire = false ∨ sh.zone ≠ some z ∧ s.zoneInFire sh = false)) ∧
    (∃ (z : Fin 6) (i : Fin 16) (sh : Shutter) (s : State), s.FireFollowsZones ∧ s.lines.zoneIn.getLsbD z.val = false ∧ s.fzu.zones[z].enabled = true ∧ s.fzu.zones[z].state ≠ .alarmed ∧ s.shc.stations[i] = some sh ∧ sh.retryWait = false ∧ sh.kind = .grille ∧ (sh.state = .opened ∨ sh.state = .raising)) ∧
    (∃ (i : Fin 16) (sh : Shutter) (s : State), s.msu.source = .reserve ∧ s.msu.batteryLow = true ∧ s.fzu.fire = true ∧ s.shc.stations[i] = some sh ∧ sh.kind = .grille ∧ sh.supplyWait = true ∧ s.zoneInFire sh = true ∧ (sh.state = .closed ∨ sh.state = .haltedPart) ∧ sh.retryWait = false ∧ s.lines.mainsOk = false) ∧
    (∃ (i : Fin 16) (sh : Shutter) (s : State), s.msu.source = .reserve ∧ s.msu.batteryLow = true ∧ s.fzu.fire = true ∧ s.shc.stations[i] = some sh ∧ sh.kind = .grille ∧ sh.supplyWait = true ∧ s.zoneInFire sh = true ∧ (sh.state = .closed ∨ sh.state = .haltedPart) ∧ sh.retryWait = false ∧ s.lines.battLow = true) ∧
    (∃ s t : State, s.FireFollowsZones ∧ s.FireShuttersDown ∧ step s = .next t) :=
  ⟨⟨0, running, by decide +kernel⟩,
    ⟨0, 0, { door .fire .opened with zone := some 0, landing := some 0 }, { (withDoor { door .fire .opened with zone := some 0, landing := some 0 } shop) with cht.settled := true, lines.openLim := 1 }, by decide +kernel⟩,
    ⟨0, 0, { door .fire .opened with zone := some 0, landing := some 0 }, { (withDoor { door .fire .opened with zone := some 0, landing := some 0 } (withZone ⟨true, 1, .standing, false⟩ shop)) with fzu.deadline := .spent, cht.settled := true, cht.position := some 250 }, by decide +kernel⟩,
    ⟨0, 0, { door .fire .opened with zone := some 0, landing := some 0 }, { (withDoor { door .fire .opened with zone := some 0, landing := some 0 } shop) with cht.position := some 250, cht.settled := true }, by decide +kernel⟩,
    ⟨0, 0, { door .fire .raising with zone := some 0 }, (withDoor { door .fire .raising with zone := some 0 } shop), by decide +kernel⟩,
    ⟨0, 0, { door .grille .descending with zone := some 0, openOnFire := true }, (withDoor { door .grille .descending with zone := some 0, openOnFire := true } shop), by decide +kernel⟩,
    ⟨0, 0, { door .grille .closed with zone := some 0, openOnFire := true }, { (withDoor { door .grille .closed with zone := some 0, openOnFire := true } shop) with lines.mainsOk := false, msu.source := .reserve, msu.batteryLow := true }, by decide +kernel⟩,
    ⟨0, 0, { door .grille .descending with zone := some 0, openOnFire := true, landing := some 0 }, (withDoor { door .grille .descending with zone := some 0, openOnFire := true, landing := some 0 } running), by decide +kernel⟩,
    ⟨0, 0, (door .grille .descending), (withDoor (door .grille .descending) shop), by decide +kernel⟩,
    ⟨0, 0, { door .grille .opened with zone := some 0, openOnFire := true }, (withDoor { door .grille .opened with zone := some 0, openOnFire := true } shop), by decide +kernel⟩,
    ⟨0, { door .grille .closed with zone := some 0, openOnFire := true, supplyWait := true }, { (withDoor { door .grille .closed with zone := some 0, openOnFire := true, supplyWait := true } fireShop) with lines.mainsOk := false, msu.source := .reserve, msu.batteryLow := true, lines.battLow := true }, by decide +kernel⟩,
    ⟨0, { door .grille .haltedPart with zone := some 0, openOnFire := true, supplyWait := true }, { (withDoor { door .grille .haltedPart with zone := some 0, openOnFire := true, supplyWait := true } fireShop) with lines.mainsOk := false, msu.source := .reserve, msu.batteryLow := true, lines.battLow := true }, by decide +kernel⟩,
    ⟨{ fireShop with pending := [.battLowSet] }, (nextOf (step { fireShop with pending := [.battLowSet] })), (by decide +kernel), (by decide +kernel), (next_of (by decide +kernel))⟩⟩

theorem witness_FireTimersRelease :
    (∃ (s : State), s.cpu.run = none ∧ ∃ x, s.fzu.deadline = .running x) ∧
    (∃ (s : State), s.cpu.run = none ∧ ∃ x, s.fzu.hold = .running x) :=
  ⟨⟨{ fireShop with fzu.deadline := .running 1000 }, (by decide +kernel), 1000, by decide +kernel⟩,
    ⟨{ shop with fzu.hold := .running 30000, lines.mainsOk := false, msu.source := .reserve }, (by decide +kernel), 30000, by decide +kernel⟩⟩

theorem witness_BellSettingsAndPosts :
    (∃ (h : OrderHead) (body : List Byte) (present : BitVec 10) (s : State), s.Ready ∧ body.length = 4 ∧ Body.lines body 0 = some present ∧ present ≠ 0 ∧ 2 ≤ Body.byte body 2 ∧ Body.byte body 2 ≤ 30 ∧ 5 ≤ Body.byte body 3 ∧ Body.byte body 3 ≤ 60 ∧ (present = s.blx.present ∨ s.blx.calls = []) ∧ s.toStore.Calm) ∧
    (∃ (h : OrderHead) (body : List Byte) (present : BitVec 10) (s : State), s.Ready ∧ body.length = 4 ∧ Body.lines body 0 = some present ∧ present ≠ 0 ∧ 2 ≤ Body.byte body 2 ∧ Body.byte body 2 ≤ 30 ∧ 5 ≤ Body.byte body 3 ∧ Body.byte body 3 ≤ 60 ∧ present ≠ s.blx.present ∧ s.blx.calls ≠ []) ∧
    (∃ (h : OrderHead) (body : List Byte) (p : Post) (s : State), s.Ready ∧ s.MayHold h ∧ body.length = 9 ∧ Body.post body h.held = some p ∧ ∃ x, s.callRefusal p = some x) ∧
    (∃ (h : OrderHead) (body : List Byte) (p : Post) (s : State), s.Ready ∧ s.MayHold h ∧ body.length = 9 ∧ Body.post body h.held = some p ∧ ∃ n b, s.callRefusal p = none ∧ s.blx.merge p = some (n, b) ∧ s.toStore.Calm) ∧
    (∃ (h : OrderHead) (body : List Byte) (p : Post) (s : State), s.Ready ∧ s.MayHold h ∧ body.length = 9 ∧ Body.post body h.held = some p ∧ s.callRefusal p = none ∧ s.blx.merge p = none ∧ s.toStore.Calm) ∧
    (∃ (h : OrderHead) (body : List Byte) (s : State), s.Ready ∧ s.MayHold h ∧ body.length ≠ 9) ∧
    (∃ (h : OrderHead) (body : List Byte) (s : State), s.Ready ∧ s.MayHold h ∧ body.length = 9 ∧ Body.post body h.held = none) ∧
    (∃ (body : List Byte) (held : Bool) (p : Post), body.length = 9 ∧ Body.post body held = some p) :=
  ⟨⟨head, [3, 255, 6, 15], 0x3FF, shop, (by decide +kernel), (by decide +kernel), (by decide +kernel), (by decide +kernel), (by decide +kernel), (by decide +kernel), (by decide +kernel), (by decide +kernel), (by decide +kernel), (calm_of (by decide +kernel) (by decide +kernel) (by decide +kernel))⟩,
    ⟨head, [0, 3, 6, 15], 3, { shop with blx.queue := [(ordinary false .routine false)], blx.ringers := Vector.replicate 3 ⟨.striking, some .evac, 0x3FF, ⟨[1], 0, 0, true⟩, some 100⟩ }, by decide +kernel⟩,
    ⟨head, [2, 0, 0, 0, 0, 1, 3, 1, 0], ⟨[2], 1, .routine, 1, false, false, .host, false⟩, { shop with msu.mode := .night }, (by decide +kernel), (by decide +kernel), (by decide +kernel), (by decide +kernel), .mode, by decide +kernel⟩,
    ⟨head, [2, 0, 0, 0, 0, 1, 3, 1, 0], ⟨[2], 1, .routine, 1, false, false, .host, false⟩, { shop with blx.queue := [(ordinary false .routine false)], blx.ringers := Vector.replicate 3 ⟨.striking, some .evac, 0x3FF, ⟨[1], 0, 0, true⟩, some 100⟩ }, (by decide +kernel), (by decide +kernel), (by decide +kernel), (by decide +kernel), 5, (mergedBlx { shop with blx.queue := [(ordinary false .routine false)], blx.ringers := Vector.replicate 3 ⟨.striking, some .evac, 0x3FF, ⟨[1], 0, 0, true⟩, some 100⟩ }.blx ⟨[2], 1, .routine, 1, false, false, .host, false⟩), (by decide +kernel), (by decide +kernel), (calm_of (by decide +kernel) (by decide +kernel) (by decide +kernel))⟩,
    ⟨head, [2, 0, 0, 0, 0, 1, 3, 1, 0], ⟨[2], 1, .routine, 1, false, false, .host, false⟩, shop, (by decide +kernel), (by decide +kernel), (by decide +kernel), (by decide +kernel), (by decide +kernel), (by decide +kernel), (calm_of (by decide +kernel) (by decide +kernel) (by decide +kernel))⟩,
    ⟨holding, [2], shop, by decide +kernel⟩,
    ⟨head, [2, 0, 3, 0, 0, 1, 3, 1, 0], shop, by decide +kernel⟩,
    ⟨[9, 9, 9, 9, 3, 255, 0, 9, 3], true, ⟨[9, 9, 9, 9], 0x3FF, .urgent, 9, true, true, .host, true⟩, by decide +kernel⟩⟩

theorem witness_AdmissionAndMerge :
    (∃ (p : Post) (b : Blx), 1 ≤ b.nextNumber ∧ b.nextNumber ≤ 255 ∧ b.calls.length < 16) ∧
    (∃ (p : Post) (b : Blx), 1 ≤ b.nextNumber ∧ b.nextNumber ≤ 255 ∧ b.calls.length < 16 ∧ ∃ c ∈ b.calls, True) ∧
    (∃ (p : Post) (b b' : Blx) (n : Nat), b.merge p = some (n, b')) ∧
    (∃ (p : Post) (b : Blx), b.merge p = none ∧ ∃ c ∈ b.calls, True) ∧
    (∃ (p : Post) (b : Blx) (pre post : List Call) (c : Call), b.queue = pre ++ c :: post ∧ c.code = p.code ∧ c.lines = p.lines ∧ c.cls = p.cls ∧ (∀ x ∈ pre ++ post, ¬ (x.code = p.code ∧ x.lines = p.lines ∧ x.cls = p.cls))) ∧
    (∃ (p : Post) (b : Blx) (r : Fin 3) (c c' : Call), b.ringers[r].held = some (.ordinary c) ∧ c.code = p.code ∧ c.lines = p.lines ∧ c.cls = p.cls ∧ (∀ x ∈ b.queue, ¬ (x.code = p.code ∧ x.lines = p.lines ∧ x.cls = p.cls)) ∧ (∀ (r' : Fin 3) (x : Call), b.ringers[r'].held = some (.ordinary x) → x.code = p.code → x.lines = p.lines → x.cls = p.cls → r' = r) ∧ c' = { c with repeats := max c.repeats p.repeats, remaining := c.remaining + (max c.repeats p.repeats - c.repeats), wantAnswer := c.wantAnswer || p.wantAnswer } ∧ b.ringers[r].state = .awaiting ∧ 0 < c'.remaining) ∧
    (∃ (p : Post) (b : Blx) (r : Fin 3) (c c' : Call), b.ringers[r].held = some (.ordinary c) ∧ c.code = p.code ∧ c.lines = p.lines ∧ c.cls = p.cls ∧ (∀ x ∈ b.queue, ¬ (x.code = p.code ∧ x.lines = p.lines ∧ x.cls = p.cls)) ∧ (∀ (r' : Fin 3) (x : Call), b.ringers[r'].held = some (.ordinary x) → x.code = p.code → x.lines = p.lines → x.cls = p.cls → r' = r) ∧ c' = { c with repeats := max c.repeats p.repeats, remaining := c.remaining + (max c.repeats p.repeats - c.repeats), wantAnswer := c.wantAnswer || p.wantAnswer } ∧ (b.ringers[r].state ≠ .awaiting ∨ c'.remaining = 0)) :=
  ⟨⟨⟨[2], 1, .routine, 1, false, false, .host, false⟩, { { shop with blx.queue := [(ordinary false .routine false)], blx.ringers := Vector.replicate 3 ⟨.striking, some .evac, 0x3FF, ⟨[1], 0, 0, true⟩, some 100⟩ }.blx with nextNumber := 5 }, by decide +kernel⟩,
    ⟨⟨[2], 1, .routine, 1, false, false, .host, false⟩, { shop with blx.queue := [(ordinary false .routine false)], blx.ringers := Vector.replicate 3 ⟨.striking, some .evac, 0x3FF, ⟨[1], 0, 0, true⟩, some 100⟩ }.blx, (by decide +kernel), (by decide +kernel), (by decide +kernel), (ordinary false .routine false), by decide +kernel⟩,
    ⟨⟨[2], 1, .routine, 1, false, false, .host, false⟩, { shop with blx.queue := [(ordinary false .routine false)], blx.ringers := Vector.replicate 3 ⟨.striking, some .evac, 0x3FF, ⟨[1], 0, 0, true⟩, some 100⟩ }.blx, (mergedBlx { shop with blx.queue := [(ordinary false .routine false)], blx.ringers := Vector.replicate 3 ⟨.striking, some .evac, 0x3FF, ⟨[1], 0, 0, true⟩, some 100⟩ }.blx ⟨[2], 1, .routine, 1, false, false, .host, false⟩), 5, by decide +kernel⟩,
    ⟨⟨[3], 1, .routine, 1, false, false, .host, false⟩, { shop with blx.queue := [(ordinary false .routine false)], blx.ringers := Vector.replicate 3 ⟨.striking, some .evac, 0x3FF, ⟨[1], 0, 0, true⟩, some 100⟩ }.blx, (by decide +kernel), (ordinary false .routine false), by decide +kernel⟩,
    ⟨⟨[2], 1, .routine, 3, true, false, .host, false⟩, { shop with blx.queue := [(ordinary false .routine false)], blx.ringers := Vector.replicate 3 ⟨.striking, some .evac, 0x3FF, ⟨[1], 0, 0, true⟩, some 100⟩ }.blx, [], [], (ordinary false .routine false), by decide +kernel⟩,
    ⟨⟨[2], 1, .routine, 3, true, false, .host, false⟩, (withRinger { ordinary true .routine false with remaining := 0 } .awaiting shop).blx, 0, { ordinary true .routine false with remaining := 0 }, { ordinary true .routine false with repeats := 3, remaining := 2 }, (by decide +kernel), (by decide +kernel), (by decide +kernel), (by decide +kernel), (by decide +kernel), (held_of (by decide +kernel)), by decide +kernel⟩,
    ⟨⟨[2], 1, .routine, 3, true, false, .host, false⟩, (withRinger (ordinary false .routine false) .striking shop).blx, 0, (ordinary false .routine false), { ordinary true .routine false with repeats := 3, remaining := 3 }, (by decide +kernel), (by decide +kernel), (by decide +kernel), (by decide +kernel), (by decide +kernel), (held_of (by decide +kernel)), by decide +kernel⟩⟩

theorem witness_AssignmentLeavesNoCallServable :
    (∃ b : Blx, (∀ r : Fin 3, b.ringers[r].held = none → b.ringers[r].lines = 0) ∧ (∃ r : Fin 3, b.assign.ringers[r].held = none) ∧ ∃ c ∈ b.assign.queue, True) ∧
    (∃ b : Blx, (∀ r : Fin 3, b.ringers[r].held = none → b.ringers[r].lines = 0) ∧ (∀ r r' : Fin 3, r ≠ r' → b.ringers[r].lines &&& b.ringers[r'].lines = 0) ∧ ∃ r r' : Fin 3, r ≠ r') ∧
    (∃ (b : Blx) (r : Fin 3), (b.ringers[r].held ≠ none ∨ (∀ c ∈ b.queue, c.lines &&& b.owned ≠ 0))) ∧
    (∃ (b : Blx) (r : Fin 3) (pre post : List Call) (c : Call), b.ringers[r].held = none ∧ b.queue = pre ++ c :: post ∧ (∀ x ∈ pre, x.lines &&& b.owned ≠ 0) ∧ c.lines &&& b.owned = 0) :=
  ⟨⟨{ Blx.reset with queue := [(ordinary false .routine false)], ringers := put Blx.reset.ringers 0 ⟨.striking, some .evac, 0x3FF, ⟨[1], 0, 0, true⟩, some 100⟩ }, (by decide +kernel), (by decide +kernel), (ordinary false .routine false), by decide +kernel⟩,
    ⟨shop.blx, (by decide +kernel), (by decide +kernel), 0, 1, by decide +kernel⟩,
    ⟨{ Blx.reset with queue := [(ordinary false .routine false)], ringers := put Blx.reset.ringers 0 ⟨.striking, some .evac, 0x3FF, ⟨[1], 0, 0, true⟩, some 100⟩ }, 1, by decide +kernel⟩,
    ⟨{ Blx.reset with queue := [(ordinary false .routine false), { ordinary false .routine false with number := 6, lines := 2 }], ringers := put Blx.reset.ringers 0 ⟨.striking, some .evac, 1, ⟨[], 0, 0, true⟩, none⟩ }, 1, [(ordinary false .routine false)], [], { ordinary false .routine false with number := 6, lines := 2 }, by decide +kernel⟩⟩

theorem witness_RoundsStrokesAndAnswers :
    (∃ (r : Fin 3) (c : Call) (s : State), s.toStore.Calm ∧ s.blx.ringers[r].held = some (.ordinary c) ∧ s.blx.ringers[r].state = .striking ∧ 1 < c.remaining) ∧
    (∃ (r : Fin 3) (c : Call) (s : State), s.toStore.Calm ∧ s.blx.ringers[r].held = some (.ordinary c) ∧ s.blx.ringers[r].state = .striking ∧ c.remaining ≤ 1 ∧ c.wantAnswer = true) ∧
    (∃ (r : Fin 3) (c : Call) (s : State), s.toStore.Calm ∧ s.blx.ringers[r].held = some (.ordinary c) ∧ s.blx.ringers[r].state = .striking ∧ c.remaining ≤ 1 ∧ c.wantAnswer = false) ∧
    (∃ (r : Fin 3) (c : Call) (s : State), s.toStore.Calm ∧ s.blx.ringers[r].held = some (.ordinary c) ∧ s.blx.ringers[r].state = .pausing) ∧
    (∃ (r : Fin 3) (c : Call) (s : State), s.toStore.Calm ∧ s.blx.ringers[r].held = some (.ordinary c) ∧ s.blx.ringers[r].state = .awaiting ∧ (¬ (c.cls = .urgent ∧ c.escalate = true))) ∧
    (∃ (r : Fin 3) (c : Call) (s : State), s.toStore.Calm ∧ s.blx.ringers[r].held = some (.ordinary c) ∧ ∃ (p : Post) (b : Blx), s.blx.ringers[r].state = .awaiting ∧ c.cls = .urgent ∧ c.escalate = true ∧ p = ⟨c.code, s.blx.present, .urgent, c.repeats, c.wantAnswer, false, c.origin, false⟩ ∧ b = s.blx.setRinger r .idle ∧ ∃ n b', b.merge p = some (n, b')) ∧
    (∃ (r : Fin 3) (c : Call) (s : State), s.toStore.Calm ∧ s.blx.ringers[r].held = some (.ordinary c) ∧ ∃ (p : Post) (b : Blx), s.blx.ringers[r].state = .awaiting ∧ c.cls = .urgent ∧ c.escalate = true ∧ p = ⟨c.code, s.blx.present, .urgent, c.repeats, c.wantAnswer, false, c.origin, false⟩ ∧ b = s.blx.setRinger r .idle ∧ b.merge p = none) ∧
    (∃ (r : Fin 3) (c : Call) (s : State), s.toStore.Calm ∧ s.blx.ringers[r].held = some (.ordinary c) ∧ ∃ l : Fin 10, s.lines.answer.getLsbD l.val = false ∧ s.blx.ringers[r].lines.getLsbD l.val = true ∧ (∀ r' : Fin 3, s.blx.ringers[r'].lines.getLsbD l.val = true → r' = r) ∧ c.wantAnswer = true ∧ c.guard = false) ∧
    (∃ (r : Fin 3) (c : Call) (s : State), s.toStore.Calm ∧ s.blx.ringers[r].held = some (.ordinary c)) ∧
    (∃ (r : Fin 3) (c : Call) (s : State), s.toStore.Calm ∧ s.blx.ringers[r].held = some (.ordinary c) ∧ s.blx.ringers[r].state = .striking ∧ s.blx.ringers[r].stroke.on = true) ∧
    (∃ (r : Fin 3) (c : Call) (s : State), s.toStore.Calm ∧ s.blx.ringers[r].held = some (.ordinary c) ∧ ∃ g k, s.blx.ringers[r].state = .striking ∧ s.blx.ringers[r].stroke = ⟨c.code, g, k, false⟩) ∧
    (∃ (r : Fin 3) (c : Call) (s : State), s.toStore.Calm ∧ s.blx.ringers[r].held = some (.ordinary c) ∧ ∃ l : Fin 10, s.lines.answer.getLsbD l.val = false ∧ s.blx.ringers[r].lines.getLsbD l.val = true ∧ (∀ r' : Fin 3, s.blx.ringers[r'].lines.getLsbD l.val = true → r' = r) ∧ (c.wantAnswer = false ∨ c.guard = true)) ∧
    (∃ (r : Fin 3) (s : State), s.fzu.fire = true ∧ s.blx.ringers[r].held = some .alert ∧ s.blx.ringers[r].state = .striking) ∧
    (∃ (r : Fin 3) (s : State), s.fzu.fire = true ∧ s.blx.ringers[r].held = some .alert ∧ s.blx.ringers[r].state = .striking ∧ s.blx.ringers[r].stroke.on = true) ∧
    (∃ (r : Fin 3) (s : State), s.fzu.fire = true ∧ s.blx.ringers[r].held = some .alert ∧ s.blx.ringers[r].state = .striking ∧ ∃ code g k, s.blx.ringers[r].stroke = ⟨code, g, k, false⟩) ∧
    (∃ (r : Fin 3) (s : State), s.fzu.fire = true ∧ s.blx.ringers[r].held = some .alert ∧ s.blx.ringers[r].state = .pausing) ∧
    (∃ (r : Fin 3) (s : State), s.fzu.fire = true ∧ s.blx.ringers[r].held = some .evac ∧ s.blx.ringers[r].state = .striking) ∧
    (∃ (r : Fin 3) (s : State), s.fzu.fire = true ∧ ∃ l : Fin 10, (s.blx.ringers[r].held = some .alert ∨ s.blx.ringers[r].held = some .evac) ∧ s.lines.answer.getLsbD l.val = false ∧ s.blx.ringers[r].lines.getLsbD l.val = true ∧ (∀ r' : Fin 3, s.blx.ringers[r'].lines.getLsbD l.val = true → r' = r)) :=
  ⟨⟨0, { ordinary false .routine false with remaining := 2 }, (withRinger { ordinary false .routine false with remaining := 2 } .striking shop), (calm_of (by decide +kernel) (by decide +kernel) (by decide +kernel)), by decide +kernel⟩,
    ⟨0, (ordinary true .routine false), (withRinger (ordinary true .routine false) .striking shop), (calm_of (by decide +kernel) (by decide +kernel) (by decide +kernel)), by decide +kernel⟩,
    ⟨0, (ordinary false .routine false), (withRinger (ordinary false .routine false) .striking shop), (calm_of (by decide +kernel) (by decide +kernel) (by decide +kernel)), by decide +kernel⟩,
    ⟨0, { ordinary false .routine false with remaining := 2 }, (withRinger { ordinary false .routine false with remaining := 2 } .pausing shop), (calm_of (by decide +kernel) (by decide +kernel) (by decide +kernel)), by decide +kernel⟩,
    ⟨0, (ordinary true .routine false), (withRinger (ordinary true .routine false) .awaiting shop), (calm_of (by decide +kernel) (by decide +kernel) (by decide +kernel)), by decide +kernel⟩,
    ⟨0, (ordinary true .urgent true), { (withRinger (ordinary true .urgent true) .awaiting shop) with blx.queue := [{ ordinary true .urgent false with number := 6, lines := 0x3FF }] }, (calm_of (by decide +kernel) (by decide +kernel) (by decide +kernel)), (by decide +kernel), ⟨[2], 0x3FF, .urgent, 1, true, false, .host, false⟩, (({ (withRinger (ordinary true .urgent true) .awaiting shop) with blx.queue := [{ ordinary true .urgent false with number := 6, lines := 0x3FF }] }).blx.setRinger 0 .idle), (by decide +kernel), (by decide +kernel), (by decide +kernel), (by decide +kernel), (by decide +kernel), 6, (mergedBlx (({ (withRinger (ordinary true .urgent true) .awaiting shop) with blx.queue := [{ ordinary true .urgent false with number := 6, lines := 0x3FF }] }).blx.setRinger 0 .idle) ⟨[2], 0x3FF, .urgent, 1, true, false, .host, false⟩), by decide +kernel⟩,
    ⟨0, (ordinary true .urgent true), (withRinger (ordinary true .urgent true) .awaiting shop), (calm_of (by decide +kernel) (by decide +kernel) (by decide +kernel)), (by decide +kernel), ⟨[2], 0x3FF, .urgent, 1, true, false, .host, false⟩, (((withRinger (ordinary true .urgent true) .awaiting shop)).blx.setRinger 0 .idle), by decide +kernel⟩,
    ⟨0, (ordinary true .routine false), (withRinger (ordinary true .routine false) .awaiting shop), (calm_of (by decide +kernel) (by decide +kernel) (by decide +kernel)), (by decide +kernel), 0, by decide +kernel⟩,
    ⟨0, (ordinary false .routine false), (withRinger (ordinary false .routine false) .striking shop), (calm_of (by decide +kernel) (by decide +kernel) (by decide +kernel)), by decide +kernel⟩,
    ⟨0, (ordinary false .routine false), (withRinger (ordinary false .routine false) .striking shop), (calm_of (by decide +kernel) (by decide +kernel) (by decide +kernel)), by decide +kernel⟩,
    ⟨0, (ordinary false .routine false), { (withRinger (ordinary false .routine false) .striking shop) with blx.ringers := put shop.blx.ringers 0 ⟨.striking, some (.ordinary (ordinary false .routine false)), 1, ⟨[2], 0, 0, false⟩, some 100⟩ }, (calm_of (by decide +kernel) (by decide +kernel) (by decide +kernel)), (by decide +kernel), 0, 0, by decide +kernel⟩,
    ⟨0, (ordinary false .routine false), (withRinger (ordinary false .routine false) .striking shop), (calm_of (by decide +kernel) (by decide +kernel) (by decide +kernel)), (by decide +kernel), 0, by decide +kernel⟩,
    ⟨1, { fireShop with blx.ringers := put (put shop.blx.ringers 0 ⟨.striking, some .evac, 1, ⟨[], 0, 0, true⟩, none⟩) 1 ⟨.striking, some .alert, 0x3FE, ⟨[3, 3], 0, 0, true⟩, some 100⟩ }, by decide +kernel⟩,
    ⟨1, { fireShop with blx.ringers := put (put shop.blx.ringers 0 ⟨.striking, some .evac, 1, ⟨[], 0, 0, true⟩, none⟩) 1 ⟨.striking, some .alert, 0x3FE, ⟨[3, 3], 0, 0, true⟩, some 100⟩ }, by decide +kernel⟩,
    ⟨1, { fireShop with blx.ringers := put (put shop.blx.ringers 0 ⟨.striking, some .evac, 1, ⟨[], 0, 0, true⟩, none⟩) 1 ⟨.striking, some .alert, 0x3FE, ⟨[3, 3], 0, 2, false⟩, some 100⟩ }, (by decide +kernel), (by decide +kernel), (by decide +kernel), [3, 3], 0, 2, by decide +kernel⟩,
    ⟨1, { fireShop with blx.ringers := put (put shop.blx.ringers 0 ⟨.striking, some .evac, 1, ⟨[], 0, 0, true⟩, none⟩) 1 ⟨.pausing, some .alert, 0x3FE, ⟨[], 0, 0, false⟩, some 100⟩ }, by decide +kernel⟩,
    ⟨0, { fireShop with blx.ringers := put (put shop.blx.ringers 0 ⟨.striking, some .evac, 1, ⟨[], 0, 0, true⟩, none⟩) 1 ⟨.striking, some .alert, 0x3FE, ⟨[3, 3], 0, 0, true⟩, some 100⟩ }, by decide +kernel⟩,
    ⟨0, { fireShop with blx.ringers := put (put shop.blx.ringers 0 ⟨.striking, some .evac, 1, ⟨[], 0, 0, true⟩, none⟩) 1 ⟨.striking, some .alert, 0x3FE, ⟨[3, 3], 0, 0, true⟩, some 100⟩ }, (by decide +kernel), 0, by decide +kernel⟩⟩

/-- As `pause1`. -/
def pause11 : {n : Nat // n = 11} := ⟨11, by decide +kernel⟩

theorem witness_CancelEndsCalls :
    (∃ (h : OrderHead) (body : List Byte) (c : Call) (s : State), s.Ready ∧ body.length = 1 ∧ c ∈ s.blx.queue ∧ c.number = Body.byte body 0 ∧ (∀ x ∈ s.blx.queue, x.number = c.number → x = c) ∧ s.toStore.Calm) ∧
    (∃ (h : OrderHead) (body : List Byte) (c : Call) (s : State), s.Ready ∧ body.length = 1 ∧ ∃ r : Fin 3, s.blx.ringers[r].held = some (.ordinary c) ∧ c.number = Body.byte body 0 ∧ (∀ x ∈ s.blx.queue, x.number ≠ c.number) ∧ (∀ (r' : Fin 3) (x : Call), s.blx.ringers[r'].held = some (.ordinary x) → x.number = c.number → r' = r) ∧ s.toStore.Calm) ∧
    (∃ (h : OrderHead) (body : List Byte) (c : Call) (s : State), s.Ready ∧ body.length = 1 ∧ (∀ x ∈ s.blx.calls, x.number ≠ Body.byte body 0)) :=
  ⟨⟨head, [5], (ordinary false .routine false), { shop with blx.queue := [(ordinary false .routine false)], blx.ringers := Vector.replicate 3 ⟨.striking, some .evac, 0x3FF, ⟨[1], 0, 0, true⟩, some 100⟩ }, (by decide +kernel), (by decide +kernel), (by decide +kernel), (by decide +kernel), (by decide +kernel), (calm_of (by decide +kernel) (by decide +kernel) (by decide +kernel))⟩,
    ⟨head, [5], (ordinary false .routine false), (withRinger (ordinary false .routine false) .striking shop), (by decide +kernel), (by decide +kernel), 0, (by decide +kernel), (by decide +kernel), (by decide +kernel), (ringers_of (by decide +kernel)), (calm_of (by decide +kernel) (by decide +kernel) (by decide +kernel))⟩,
    ⟨head, [5], (ordinary false .routine false), shop, by decide +kernel⟩⟩

theorem witness_DeclaredPhrases :
    (∃ (h : OrderHead) (body : List Byte) (s : State), s.Ready ∧ body.length ≠ 5) ∧
    (∃ (h : OrderHead) (body : List Byte) (s : State), s.Ready ∧ body.length = 5 ∧ Body.fin 64 body 0 = none) ∧
    (∃ (h : OrderHead) (body : List Byte) (k : Fin 64) (s : State), s.Ready ∧ body.length = 5 ∧ Body.fin 64 body 0 = some k ∧ Body.word body 1 ≤ 2048 ∧ s.phs.totalWith k (Body.word body 1) ≤ 8192 ∧ (∀ j, s.anp.sounding = some j → j < k)) ∧
    (∃ (h : OrderHead) (body : List Byte) (k : Fin 64) (s : State), s.Ready ∧ body.length = 5 ∧ Body.fin 64 body 0 = some k ∧ 2048 < Body.word body 1) ∧
    (∃ (h : OrderHead) (body : List Byte) (k : Fin 64) (s : State), s.Ready ∧ body.length = 5 ∧ Body.fin 64 body 0 = some k ∧ Body.word body 1 ≤ 2048 ∧ 8192 < s.phs.totalWith k (Body.word body 1)) ∧
    (∃ (h : OrderHead) (body : List Byte) (k : Fin 64) (s : State), s.Ready ∧ body.length = 5 ∧ Body.fin 64 body 0 = some k ∧ ∃ j, Body.word body 1 ≤ 2048 ∧ s.phs.totalWith k (Body.word body 1) ≤ 8192 ∧ s.anp.sounding = some j ∧ k ≤ j) :=
  ⟨⟨head, [1], shop, by decide +kernel⟩,
    ⟨head, [64, 0, 2, 0, 5], shop, by decide +kernel⟩,
    ⟨head, [3, 0, 2, 0, 5], 3, shop, by decide +kernel⟩,
    ⟨head, [3, 8, 1, 0, 5], 3, shop, by decide +kernel⟩,
    ⟨head, [3, 0, 2, 0, 5], 3, { shop with phs.slots := put Phs.reset.slots 0 ⟨8191, 5, [], none⟩ }, by decide +kernel⟩,
    ⟨head, [1, 0, 2, 0, 5], 1, playing .sounding, (by decide +kernel), (by decide +kernel), (by decide +kernel), 1, by decide +kernel⟩⟩

theorem witness_LoadedBlocksReadBack :
    (∃ (h : OrderHead) (body : List Byte) (s : State), s.Ready ∧ body.length ≠ 131) ∧
    (∃ (h : OrderHead) (body : List Byte) (s : State), s.Ready ∧ body.length = 131 ∧ Body.fin 64 body 0 = none) ∧
    (∃ (h : OrderHead) (body : List Byte) (k : Fin 64) (s : State), s.Ready ∧ body.length = 131 ∧ Body.fin 64 body 0 = some k ∧ s.phs.slots[k].length = 0) ∧
    (∃ (h : OrderHead) (body : List Byte) (k : Fin 64) (s : State), s.Ready ∧ body.length = 131 ∧ Body.fin 64 body 0 = some k ∧ 0 < s.phs.slots[k].length ∧ s.phs.slots[k].length ≤ Body.word body 1) ∧
    (∃ (h : OrderHead) (body : List Byte) (k : Fin 64) (s : State), s.Ready ∧ body.length = 131 ∧ Body.fin 64 body 0 = some k ∧ Body.word body 1 < s.phs.slots[k].length ∧ s.anp.sounding = some k) ∧
    (∃ (h : OrderHead) (body : List Byte) (k : Fin 64) (s : State), s.Ready ∧ s.PhrasesFit ∧ body.length = 131 ∧ Body.fin 64 body 0 = some k ∧ Body.word body 1 < s.phs.slots[k].length ∧ s.anp.sounding ≠ some k) :=
  ⟨⟨head, [1], shop, by decide +kernel⟩,
    ⟨head, (64 :: List.replicate 130 9), shop, by decide +kernel⟩,
    ⟨head, (0 :: 0 :: 1 :: List.replicate 128 9), 0, shop, by decide +kernel⟩,
    ⟨head, (0 :: 0 :: 2 :: List.replicate 128 9), 0, playing .idle, by decide +kernel⟩,
    ⟨head, (1 :: 0 :: 1 :: List.replicate 128 9), 1, playing .sounding, by decide +kernel⟩,
    ⟨head, (0 :: 0 :: 1 :: List.replicate 128 9), 0, { playing .idle with anp.sounding := none }, by decide +kernel⟩⟩

theorem witness_ScriptsAndAnnouncements :
    (∃ (h : OrderHead) (body : List Byte) (k : Fin 16) (s : State), s.Ready ∧ 4 ≤ body.length ∧ body.length = 4 + 3 * Body.byte body 3 ∧ Body.fin 16 body 0 = some k ∧ Body.isFlag body 1 = true ∧ (Body.script body).valid = true ∧ (∀ a, s.anp.playing = some a → a.script ≠ k) ∧ (¬ (s.anp.fire = true ∧ s.fzu.fireScript = some k))) ∧
    (∃ (h : OrderHead) (body : List Byte) (k : Fin 16) (s : State), s.Ready ∧ 4 ≤ body.length ∧ body.length = 4 + 3 * Body.byte body 3 ∧ Body.fin 16 body 0 = some k ∧ Body.isFlag body 1 = true ∧ (Body.script body).valid = true ∧ ∃ a, s.anp.playing = some a ∧ a.script = k) ∧
    (∃ (h : OrderHead) (body : List Byte) (k : Fin 16) (s : State), s.Ready ∧ 4 ≤ body.length ∧ body.length = 4 + 3 * Body.byte body 3 ∧ Body.fin 16 body 0 = some k ∧ Body.isFlag body 1 = true ∧ (Body.script body).valid = true ∧ s.anp.fire = true ∧ s.fzu.fireScript = some k) ∧
    (∃ (h : OrderHead) (body : List Byte) (s : State), s.Ready ∧ s.MayHold h ∧ body.length ≠ 3) ∧
    (∃ (h : OrderHead) (body : List Byte) (s : State), s.Ready ∧ s.MayHold h ∧ body.length = 3 ∧ 16 ≤ Body.byte body 0 ∧ Body.byte body 1 < 2) ∧
    (∃ (h : OrderHead) (body : List Byte) (s : State), s.Ready ∧ s.MayHold h ∧ body.length = 3 ∧ Body.byte body 0 < 16 ∧ 2 ≤ Body.byte body 1) ∧
    (∃ (h : OrderHead) (body : List Byte) (k : Fin 16) (cls : AnnClass) (x : Reason) (s : State), s.Ready ∧ s.MayHold h ∧ body.length = 3 ∧ Body.byte body 0 = k.val ∧ Body.byte body 1 = cls.code ∧ s.announceRefusal k cls (Body.set8 body 2) = some x) ∧
    (∃ (h : OrderHead) (body : List Byte) (k : Fin 16) (cls : AnnClass) (sp : BitVec 8) (a : Announcement) (s : State), s.Ready ∧ s.MayHold h ∧ s.toStore.Calm ∧ body.length = 3 ∧ Body.byte body 0 = k.val ∧ Body.byte body 1 = cls.code ∧ s.announceRefusal k cls (Body.set8 body 2) = none ∧ sp = (if Body.set8 body 2 = 0 then s.anp.scripts[k].speakers else Body.set8 body 2) ∧ a = ⟨freeNumber ((s.anp.queue ++ s.anp.playing.toList).map Announcement.number) 255 s.anp.next, k, sp, cls, .host, h.held⟩ ∧ s.anp.state ≠ .idle) ∧
    (∃ (h : OrderHead) (body : List Byte) (k : Fin 16) (cls : AnnClass) (sp : BitVec 8) (a : Announcement) (s : State), s.Ready ∧ s.MayHold h ∧ s.toStore.Calm ∧ body.length = 3 ∧ Body.byte body 0 = k.val ∧ Body.byte body 1 = cls.code ∧ s.announceRefusal k cls (Body.set8 body 2) = none ∧ sp = (if Body.set8 body 2 = 0 then s.anp.scripts[k].speakers else Body.set8 body 2) ∧ a = ⟨freeNumber ((s.anp.queue ++ s.anp.playing.toList).map Announcement.number) 255 s.anp.next, k, sp, cls, .host, h.held⟩ ∧ s.anp.state = .idle ∧ s.anp.fire = false) ∧
    (∃ (h : OrderHead) (body : List Byte) (k : Fin 16) (cls : AnnClass) (sp : BitVec 8) (a : Announcement) (s : State), s.Ready ∧ s.MayHold h ∧ s.toStore.Calm ∧ body.length = 3 ∧ Body.byte body 0 = k.val ∧ Body.byte body 1 = cls.code ∧ s.announceRefusal k cls (Body.set8 body 2) = none ∧ sp = (if Body.set8 body 2 = 0 then s.anp.scripts[k].speakers else Body.set8 body 2) ∧ a = ⟨freeNumber ((s.anp.queue ++ s.anp.playing.toList).map Announcement.number) 255 s.anp.next, k, sp, cls, .host, h.held⟩ ∧ 1 ≤ s.anp.next ∧ s.anp.next ≤ 255) ∧
    (∃ (h : OrderHead) (body : List Byte) (k : Fin 16) (cls : AnnClass) (sp : BitVec 8) (a : Announcement) (s : State), s.Ready ∧ s.MayHold h ∧ s.toStore.Calm ∧ body.length = 3 ∧ Body.byte body 0 = k.val ∧ Body.byte body 1 = cls.code ∧ s.announceRefusal k cls (Body.set8 body 2) = none ∧ sp = (if Body.set8 body 2 = 0 then s.anp.scripts[k].speakers else Body.set8 body 2) ∧ a = ⟨freeNumber ((s.anp.queue ++ s.anp.playing.toList).map Announcement.number) 255 s.anp.next, k, sp, cls, .host, h.held⟩ ∧ 1 ≤ s.anp.next ∧ s.anp.next ≤ 255 ∧ ∃ x ∈ s.anp.queue ++ s.anp.playing.toList, True) :=
  ⟨⟨head, [0, 0, 1, 1, 1, 2, 10], 0, shop, (by decide +kernel), (by decide +kernel), (by decide +kernel), (by decide +kernel), (by decide +kernel), (by decide +kernel), (all_of (by decide +kernel)), by decide +kernel⟩,
    ⟨head, [0, 0, 1, 1, 1, 2, 10], 0, playing .gap, (by decide +kernel), (by decide +kernel), (by decide +kernel), (by decide +kernel), (by decide +kernel), (by decide +kernel), ⟨1, 0, 1, .routine, .host, false⟩, by decide +kernel⟩,
    ⟨head, [3, 0, 1, 1, 1, 2, 10], 3, { shop with anp.fire := true, fzu.fireScript := some 3 }, by decide +kernel⟩,
    ⟨holding, [0, 1], shop, by decide +kernel⟩,
    ⟨head, [16, 1, 1], shop, by decide +kernel⟩,
    ⟨head, [15, 2, 1], shop, by decide +kernel⟩,
    ⟨holding, [0, 0, 1], 0, .closing, .mode, playing .gap, by decide +kernel⟩,
    ⟨head, [0, 1, 0], 0, .routine, 1, ⟨2, 0, 1, .routine, .host, false⟩, { playing .gap with anp.next := 2 }, (by decide +kernel), (by decide +kernel), (calm_of (by decide +kernel) (by decide +kernel) (by decide +kernel)), by decide +kernel⟩,
    ⟨head, [0, 1, 0], 0, .routine, 1, ⟨1, 0, 1, .routine, .host, false⟩, { playing .idle with anp.playing := none, anp.sounding := none }, (by decide +kernel), (by decide +kernel), (calm_of (by decide +kernel) (by decide +kernel) (by decide +kernel)), by decide +kernel⟩,
    ⟨head, [0, 1, 0], 0, .routine, 1, ⟨2, 0, 1, .routine, .host, false⟩, { playing .gap with anp.next := 2 }, (by decide +kernel), (by decide +kernel), (calm_of (by decide +kernel) (by decide +kernel) (by decide +kernel)), by decide +kernel⟩,
    ⟨head, [0, 1, 0], 0, .routine, 1, ⟨2, 0, 1, .routine, .host, false⟩, { playing .gap with anp.next := 2 }, (by decide +kernel), (by decide +kernel), (calm_of (by decide +kernel) (by decide +kernel) (by decide +kernel)), (by decide +kernel), (by decide +kernel), (by decide +kernel), (by decide +kernel), (by decide +kernel), (by decide +kernel), (by decide +kernel), (by decide +kernel), ⟨1, 0, 1, .routine, .host, false⟩, by decide +kernel⟩⟩

theorem witness_CancelEndsAnnouncements :
    (∃ (h : OrderHead) (body : List Byte) (a : Announcement) (s : State), s.Ready ∧ body.length = 1 ∧ s.toStore.Calm ∧ a.number = Body.byte body 0 ∧ a ∈ s.anp.queue ∧ (∀ x ∈ s.anp.queue, x.number = a.number → x = a) ∧ s.anp.state ≠ .idle) ∧
    (∃ (h : OrderHead) (body : List Byte) (a : Announcement) (s : State), s.Ready ∧ body.length = 1 ∧ s.toStore.Calm ∧ a.number = Body.byte body 0 ∧ s.anp.playing = some a ∧ (∀ x ∈ s.anp.queue, x.number ≠ a.number) ∧ s.anp.state = .sounding) ∧
    (∃ (h : OrderHead) (body : List Byte) (a : Announcement) (s : State), s.Ready ∧ body.length = 1 ∧ s.toStore.Calm ∧ a.number = Body.byte body 0 ∧ s.anp.playing = some a ∧ s.anp.queue = [] ∧ (s.anp.state = .preparing ∨ s.anp.state = .gap)) ∧
    (∃ (h : OrderHead) (body : List Byte) (a : Announcement) (s : State), s.Ready ∧ body.length = 1 ∧ s.toStore.Calm ∧ a.number = Body.byte body 0 ∧ (∀ x ∈ s.anp.queue ++ s.anp.playing.toList, x.number ≠ a.number)) :=
  ⟨⟨head, [2], ⟨2, 0, 1, .routine, .host, false⟩, { playing .sounding with anp.queue := [⟨2, 0, 1, .routine, .host, false⟩] }, (by decide +kernel), (by decide +kernel), (calm_of (by decide +kernel) (by decide +kernel) (by decide +kernel)), by decide +kernel⟩,
    ⟨head, [1], ⟨1, 0, 1, .routine, .host, false⟩, playing .sounding, (by decide +kernel), (by decide +kernel), (calm_of (by decide +kernel) (by decide +kernel) (by decide +kernel)), by decide +kernel⟩,
    ⟨head, [1], ⟨1, 0, 1, .routine, .host, false⟩, playing .gap, (by decide +kernel), (by decide +kernel), (calm_of (by decide +kernel) (by decide +kernel) (by decide +kernel)), by decide +kernel⟩,
    ⟨head, [9], ⟨9, 0, 1, .routine, .host, false⟩, shop, (by decide +kernel), (by decide +kernel), (calm_of (by decide +kernel) (by decide +kernel) (by decide +kernel)), by decide +kernel⟩⟩

theorem witness_ScriptsSound :
    (∃ (a : Announcement) (s : State), s.toStore.Calm ∧ s.anp.fire = false ∧ s.anp.playing = some a ∧ s.anp.state = .preparing ∧ s.anp.script.chime = true ∧ s.phs.ready 0 = true) ∧
    (∃ (a : Announcement) (s : State), s.toStore.Calm ∧ s.anp.fire = false ∧ s.anp.playing = some a ∧ ∃ (it : Item) (rest : List Item), s.anp.state = .preparing ∧ s.anp.script.chime = false ∧ s.anp.script.items = it :: rest ∧ 0 < it.repeats ∧ s.phs.ready (slotOf it.slot) = true) ∧
    (∃ (a : Announcement) (s : State), s.toStore.Calm ∧ s.anp.fire = false ∧ s.anp.playing = some a ∧ ∃ k, s.anp.state = .sounding ∧ s.anp.sounding = some k ∧ s.anp.pendingCut = false ∧ s.anp.cursor.block + 1 < s.phs.slots[k].length) ∧
    (∃ (a : Announcement) (s : State), s.toStore.Calm ∧ s.anp.fire = false ∧ s.anp.playing = some a ∧ ∃ (k : Fin 64) (it : Item), s.anp.state = .sounding ∧ s.anp.sounding = some k ∧ s.anp.pendingCut = false ∧ s.phs.slots[k].length ≤ s.anp.cursor.block + 1 ∧ s.anp.cursor.onItem = true ∧ s.anp.script.items[s.anp.cursor.item]? = some it ∧ 0 < it.gap) ∧
    (∃ (a : Announcement) (s : State), s.toStore.Calm ∧ s.anp.fire = false ∧ s.anp.playing = some a ∧ ∃ k, s.anp.state = .sounding ∧ s.anp.sounding = some k ∧ s.anp.pendingCut = true ∧ s.anp.queue = []) ∧
    (∃ (a : Announcement) (s : State), s.toStore.Calm ∧ s.anp.fire = false ∧ s.anp.playing = some a ∧ ∃ it : Item, s.anp.state = .gap ∧ s.anp.firePause = false ∧ s.anp.script.items[s.anp.cursor.item]? = some it ∧ s.anp.cursor.rep + 1 < it.repeats ∧ s.phs.ready (slotOf it.slot) = true) ∧
    (∃ (a : Announcement) (s : State), s.toStore.Calm ∧ s.anp.fire = false ∧ s.anp.playing = some a ∧ s.anp.state = .gap ∧ s.anp.firePause = false ∧ s.anp.script.items.length = s.anp.cursor.item + 1 ∧ (∀ it, s.anp.script.items[s.anp.cursor.item]? = some it → it.repeats ≤ s.anp.cursor.rep + 1) ∧ s.anp.queue = []) ∧
    (∃ (a : Announcement) (s : State), s.toStore.Calm ∧ s.anp.fire = false ∧ s.anp.playing = some a ∧ ∃ (c : Instr) (i rep j : Nat) (it : Item) (sk : Skip), s.GoesOn c i rep sk ∧ i ≤ j ∧ (∀ m, i ≤ m → m < j → s.PassesOver i rep m) ∧ s.anp.script.items[j]? = some it ∧ (if j = i then rep else 0) < it.repeats ∧ s.phs.ready (slotOf it.slot) = true) ∧
    (∃ (a : Announcement) (s : State), s.toStore.Calm ∧ s.anp.fire = false ∧ s.anp.playing = some a ∧ ∃ (c : Instr) (i rep : Nat) (sk sk' : Skip), s.GoesOn c i rep sk ∧ s.anp.queue = [] ∧ (∀ m, i ≤ m → m < s.anp.script.items.length → s.PassesOver i rep m) ∧ sk' = s.skipping i rep s.anp.script.items.length sk) :=
  ⟨⟨⟨1, 0, 1, .routine, .host, false⟩, { playing .preparing with anp.script.chime := true }, (calm_of (by decide +kernel) (by decide +kernel) (by decide +kernel)), by decide +kernel⟩,
    ⟨⟨1, 0, 1, .routine, .host, false⟩, playing .preparing, (calm_of (by decide +kernel) (by decide +kernel) (by decide +kernel)), (by decide +kernel), (by decide +kernel), ⟨1, 2, 10⟩, [], by decide +kernel⟩,
    ⟨⟨1, 0, 1, .routine, .host, false⟩, playing .sounding, (calm_of (by decide +kernel) (by decide +kernel) (by decide +kernel)), (by decide +kernel), (by decide +kernel), 1, by decide +kernel⟩,
    ⟨⟨1, 0, 1, .routine, .host, false⟩, { playing .sounding with anp.cursor.block := 1 }, (calm_of (by decide +kernel) (by decide +kernel) (by decide +kernel)), (by decide +kernel), (by decide +kernel), 1, ⟨1, 2, 10⟩, by decide +kernel⟩,
    ⟨⟨1, 0, 1, .routine, .host, false⟩, { playing .sounding with anp.pendingCut := true }, (calm_of (by decide +kernel) (by decide +kernel) (by decide +kernel)), (by decide +kernel), (by decide +kernel), 1, by decide +kernel⟩,
    ⟨⟨1, 0, 1, .routine, .host, false⟩, playing .gap, (calm_of (by decide +kernel) (by decide +kernel) (by decide +kernel)), (by decide +kernel), (by decide +kernel), ⟨1, 2, 10⟩, by decide +kernel⟩,
    ⟨⟨1, 0, 1, .routine, .host, false⟩, { playing .gap with anp.cursor.rep := 1 }, (calm_of (by decide +kernel) (by decide +kernel) (by decide +kernel)), (by decide +kernel), (by decide +kernel), (by decide +kernel), (by decide +kernel), (by decide +kernel), (all_of (by decide +kernel)), by decide +kernel⟩,
    ⟨⟨1, 0, 1, .routine, .host, false⟩, { playing .preparing with phs.slots := put Phs.reset.slots 1 ⟨2, 5, [0, 1], some 5⟩, anp.script := ⟨[⟨2, 1, 0⟩, ⟨1, 2, 10⟩], true, 1⟩ }, (calm_of (by decide +kernel) (by decide +kernel) (by decide +kernel)), (by decide +kernel), (by decide +kernel), .preparingEnd, 0, 0, 1, ⟨1, 2, 10⟩, ⟨0, true⟩, (by decide +kernel), (by decide +kernel), (passes_of (by decide +kernel)), by decide +kernel⟩,
    ⟨⟨1, 0, 1, .routine, .host, false⟩, { playing .sounding with phs.slots := put Phs.reset.slots 1 ⟨2, 5, [0, 1], some 5⟩, anp.script := ⟨[⟨1, 2, 0⟩, ⟨2, 1, 5⟩], false, 1⟩, anp.cursor := ⟨true, 0, 1, 1⟩ }, (calm_of (by decide +kernel) (by decide +kernel) (by decide +kernel)), (by decide +kernel), (by decide +kernel), .blockBoundary, 0, 2, ⟨0, false⟩, ⟨2, false⟩, (by decide +kernel), (by decide +kernel), (passes_of (by decide +kernel)), by decide +kernel⟩⟩

/-- As `pause1`. -/
def pause12 : {n : Nat // n = 12} := ⟨12, by decide +kernel⟩

theorem witness_FirePlaybackRounds :
    (∃ s : State, s.anp.fire = true ∧ s.cpu.run = none ∧ s.anp.state = .gap ∧ s.anp.firePause = true ∧ s.fzu.fireScript = none ∧ s.phs.ready 0 = true) ∧
    (∃ s : State, s.anp.fire = true ∧ s.cpu.run = none ∧ ∃ k, s.anp.state = .gap ∧ s.anp.firePause = true ∧ s.fzu.fireScript = some k ∧ s.anp.scripts[k].items ≠ [] ∧ s.anp.scripts[k].chime = true ∧ s.phs.ready 0 = true) ∧
    (∃ s : State, s.anp.fire = true ∧ s.cpu.run = none ∧ ∃ k, s.anp.state = .sounding ∧ s.anp.sounding = some k ∧ s.anp.pendingCut = false ∧ s.phs.slots[k].length ≤ s.anp.cursor.block + 1 ∧ s.anp.cursor.onItem = false ∧ s.anp.script.items = []) ∧
    (∃ s : State, s.anp.fire = true ∧ s.cpu.run = none ∧ ∃ k, s.anp.state = .sounding ∧ s.anp.sounding = some k ∧ s.anp.pendingCut = true ∧ s.anp.queue = []) :=
  ⟨⟨{ playing .gap with anp.fire := true, anp.playing := none, anp.firePause := true }, by decide +kernel⟩,
    ⟨{ playing .gap with anp.fire := true, anp.playing := none, anp.firePause := true, fzu.fireScript := some 0, anp.scripts := put Anp.reset.scripts 0 ⟨[⟨1, 2, 10⟩], true, 1⟩ }, (by decide +kernel), (by decide +kernel), 0, by decide +kernel⟩,
    ⟨{ playing .sounding with anp.fire := true, anp.playing := none, anp.firePause := false, anp.cursor := ⟨false, 0, 0, 1⟩, anp.script.items := [], anp.sounding := some 0 }, (by decide +kernel), (by decide +kernel), 0, by decide +kernel⟩,
    ⟨{ playing .sounding with anp.fire := true, anp.playing := none, anp.firePause := false, anp.pendingCut := true }, (by decide +kernel), (by decide +kernel), 1, by decide +kernel⟩⟩

theorem witness_CalendarAndTicks :
    (∃ c : CalTime, c.valid = true) ∧
    (∃ c : CalTime, c.valid = true ∧ (¬ (c.lastOfDay = true ∧ c.date = ⟨2099, 12, 31⟩))) ∧
    (∃ c : CalTime, c.valid = true ∧ c.lastOfDay = true ∧ c.date = ⟨2099, 12, 31⟩) ∧
    (∃ s : State, openingNext s = false ∧ startNext s = false ∧ stepNext s = false) ∧
    (∃ s : State, s.tmb.cal.lastOfDay = true) ∧
    (∃ s : State, s.tmb.cal.lastOfDay = false) :=
  ⟨⟨⟨⟨2024, 2, 29⟩, 23, 59, 59, 99⟩, by decide +kernel⟩,
    ⟨⟨⟨2024, 2, 29⟩, 23, 59, 59, 99⟩, by decide +kernel⟩,
    ⟨⟨⟨2099, 12, 31⟩, 23, 59, 59, 99⟩, by decide +kernel⟩,
    ⟨clocked, by decide +kernel⟩,
    ⟨{ clocked with tmb.cal := ⟨⟨2024, 2, 29⟩, 23, 59, 59, 99⟩ }, by decide +kernel⟩,
    ⟨clocked, by decide +kernel⟩⟩

theorem witness_TimeIsSet :
    (∃ (h : OrderHead) (body : List Byte) (s : State), s.Ready ∧ body.length = 8 ∧ ∃ c, Body.calTime body 0 = some c) ∧
    (∃ (h : OrderHead) (body : List Byte) (s : State), s.Ready ∧ body.length = 8 ∧ ∃ c, Body.calTime body 0 = some c ∧ (∀ r st, s.cpu.run = some r → s.cpu.programme[r.cursor]? = some st → c.abs < r.due st) ∧ s.toStore.Calm ∧ (s.tmb.timeUnset = true ∨ c.date ≠ s.tmb.cal.date ∨ c.abs ≤ s.tmb.cal.abs ∨ ∀ x, (s.tmb.setTime c).opening = some x ∨ startInstant (s.tmb.setTime c) s.cpu.programme = some x → x ≤ s.tmb.cal.abs ∨ c.abs < x)) ∧
    (∃ (h : OrderHead) (body : List Byte) (s : State), s.Ready ∧ body.length = 8 ∧ ∃ c x, Body.calTime body 0 = some c ∧ s.tmb.timeUnset = false ∧ c.date = s.tmb.cal.date ∧ (s.tmb.setTime c).opening = some x ∧ s.tmb.cal.abs < x ∧ x ≤ c.abs ∧ s.toStore.Calm ∧ (∀ y, startInstant (s.tmb.setTime c) s.cpu.programme = some y → y ≤ s.tmb.cal.abs ∨ c.abs < y) ∧ (∀ r st, s.cpu.run = some r → s.cpu.programme[r.cursor]? = some st → c.abs < r.due st)) ∧
    (∃ (h : OrderHead) (body : List Byte) (s : State), s.Ready ∧ body.length = 8 ∧ ∃ c x cl, Body.calTime body 0 = some c ∧ s.tmb.timeUnset = false ∧ c.date = s.tmb.cal.date ∧ startInstant (s.tmb.setTime c) s.cpu.programme = some x ∧ s.tmb.cal.abs < x ∧ x ≤ c.abs ∧ (s.tmb.setTime c).closing = some cl ∧ s.msu.mode = .trading ∧ s.cpu.run = none ∧ s.toStore.Calm ∧ s.pnc.state ≠ .nightLock) ∧
    (∃ (h : OrderHead) (body : List Byte) (s : State), s.Ready ∧ body.length = 8 ∧ Body.calTime body 0 = none) :=
  ⟨⟨head, [7, 232, 5, 6, 8, 0, 0, 0], shop, (by decide +kernel), (by decide +kernel), ⟨⟨2024, 5, 6⟩, 8, 0, 0, 0⟩, by decide +kernel⟩,
    ⟨head, [7, 232, 5, 6, 8, 0, 0, 0], shop, (by decide +kernel), (by decide +kernel), ⟨⟨2024, 5, 6⟩, 8, 0, 0, 0⟩, (by decide +kernel), (due_of (by decide +kernel)), (calm_of (by decide +kernel) (by decide +kernel) (by decide +kernel)), (.inl (by decide +kernel))⟩,
    ⟨head, [7, 232, 5, 6, 8, 0, 0, 0], { clocked with msu.mode := .night, tmb.today := .times 480 1080, tmb.weekly := Vector.replicate 7 (.times 480 1080) }, (by decide +kernel), (by decide +kernel), ⟨⟨2024, 5, 6⟩, 8, 0, 0, 0⟩, eight, (by decide +kernel), (by decide +kernel), (by decide +kernel), (by decide +kernel), (by decide +kernel), (by decide +kernel), (calm_of (by decide +kernel) (by decide +kernel) (by decide +kernel)), (all_of (by decide +kernel)), (due_of (by decide +kernel))⟩,
    ⟨head, [7, 232, 5, 6, 8, 0, 0, 0], { clocked with cpu.programme := [⟨0, .night⟩], tmb.today := .times 300 480, tmb.weekly := Vector.replicate 7 (.times 300 480) }, (by decide +kernel), (by decide +kernel), ⟨⟨2024, 5, 6⟩, 8, 0, 0, 0⟩, eight, eight, (by decide +kernel), (by decide +kernel), (by decide +kernel), (by decide +kernel), (by decide +kernel), (by decide +kernel), (by decide +kernel), (by decide +kernel), (by decide +kernel), (calm_of (by decide +kernel) (by decide +kernel) (by decide +kernel)), by decide +kernel⟩,
    ⟨head, [7, 232, 13, 6, 8, 0, 0, 0], shop, by decide +kernel⟩⟩

theorem witness_TrimAndReference :
    (∃ (h : OrderHead) (s : State), s.Ready ∧ ∃ body : List Byte, body.length = 1 ∧ -63 ≤ Body.signed body 0 ∧ Body.signed body 0 ≤ 63) ∧
    (∃ (h : OrderHead) (s : State), s.Ready ∧ ∃ body : List Byte, body.length = 1 ∧ (Body.signed body 0 < -63 ∨ 63 < Body.signed body 0)) ∧
    (∃ (h : OrderHead) (s : State), s.Ready ∧ s.tmb.ref = .internal) ∧
    (∃ (h : OrderHead) (s : State), s.Ready ∧ s.tmb.ref = .crystal ∧ s.tmb.fault = true) ∧
    (∃ (h : OrderHead) (s : State), s.Ready ∧ s.tmb.ref = .crystal ∧ s.tmb.fault = false) ∧
    (∃ (h : OrderHead) (s : State), s.Ready ∧ s.lines.crystal = true ∧ s.tmb.ref = .crystal) ∧
    (∃ (h : OrderHead) (s : State), s.Ready ∧ s.lines.crystal = false ∧ s.tmb.ref = .internal) ∧
    (∃ (h : OrderHead) (s : State), s.Ready) :=
  ⟨⟨head, shop, (by decide +kernel), [193], by decide +kernel⟩,
    ⟨head, shop, (by decide +kernel), [192], by decide +kernel⟩,
    ⟨head, { shop with tmb.ref := .internal, lines.crystal := false, tmb.fault := true }, by decide +kernel⟩,
    ⟨head, { shop with tmb.fault := true }, by decide +kernel⟩,
    ⟨head, shop, by decide +kernel⟩,
    ⟨head, shop, by decide +kernel⟩,
    ⟨head, { shop with tmb.ref := .internal, lines.crystal := false, tmb.fault := true }, by decide +kernel⟩,
    ⟨head, shop, by decide +kernel⟩⟩

theorem witness_HoursOfTheDay :
    (∃ (h : OrderHead) (body : List Byte) (s : State), s.Ready ∧ ∃ (i : Fin 7) (x : Hours) (t : Tmb), body.length = 5 ∧ Body.byte body 0 = i.val + 1 ∧ Body.hours body 1 = some x ∧ t = { s.tmb with weekly := put s.tmb.weekly i x }) ∧
    (∃ (h : OrderHead) (body : List Byte) (s : State), s.Ready ∧ ∃ (d : Date) (x : Hours) (t : Tmb), body.length = 8 ∧ Body.date body 0 = some d ∧ Body.hours body 4 = some x ∧ (s.tmb.timeUnset = true ∨ d.before s.tmb.cal.date = false) ∧ ((s.tmb.exceptionOn d).isSome = true ∨ s.tmb.exceptions.length < 24) ∧ t = { s.tmb with exceptions := insertBy (fun y => (y.date.days : Int)) ⟨d, x⟩ (s.tmb.exceptions.filter fun y => y.date != d) }) ∧
    (∃ (h : OrderHead) (body : List Byte) (s : State), s.Ready ∧ ∃ (d : Date) (t : Tmb), body.length = 4 ∧ Body.date body 0 = some d ∧ (s.tmb.exceptionOn d).isSome = true ∧ t = { s.tmb with exceptions := s.tmb.exceptions.filter fun y => y.date != d }) ∧
    (∃ (h : OrderHead) (body : List Byte) (s : State), s.Ready ∧ ∃ d : Date, body.length = 4 ∧ Body.date body 0 = some d ∧ s.tmb.exceptionOn d = none) ∧
    (∃ t : Tmb, ∃ x ∈ t.exceptions, x.date = t.cal.date ∧ (∀ y ∈ t.exceptions, y.date = t.cal.date → y = x)) ∧
    (∃ t : Tmb, (∀ x ∈ t.exceptions, x.date ≠ t.cal.date)) :=
  ⟨⟨head, [1, 2, 28, 4, 56], shop, (by decide +kernel), 0, (.times 540 1080), { shop.tmb with weekly := put shop.tmb.weekly 0 (.times 540 1080) }, by decide +kernel⟩,
    ⟨head, [7, 232, 5, 6, 2, 28, 4, 56], clocked, (by decide +kernel), ⟨2024, 5, 6⟩, (.times 540 1080), { clocked.tmb with exceptions := [⟨⟨2024, 5, 6⟩, (.times 540 1080)⟩] }, by decide +kernel⟩,
    ⟨head, [7, 232, 5, 6], { clocked with tmb.exceptions := [⟨⟨2024, 5, 6⟩, .closed⟩] }, (by decide +kernel), ⟨2024, 5, 6⟩, clocked.tmb, by decide +kernel⟩,
    ⟨head, [7, 232, 5, 6], clocked, (by decide +kernel), ⟨2024, 5, 6⟩, by decide +kernel⟩,
    ⟨{ clocked with tmb.exceptions := [⟨⟨2024, 5, 6⟩, .closed⟩] }.tmb, ⟨⟨2024, 5, 6⟩, .closed⟩, by decide +kernel⟩,
    ⟨clocked.tmb, by decide +kernel⟩⟩

theorem witness_StampsAreClaimedAndCleared :
    (∃ (x : Stamp) (cal : CalTime) (unset : Bool) (detail : Nat), x.count ≤ 255) ∧
    (∃ (x : Stamp) (cal : CalTime) (unset : Bool) (detail : Nat), (x.count = 0 ∨ x.mode = .last)) ∧
    (∃ (x : Stamp) (cal : CalTime) (unset : Bool) (detail : Nat), x.count ≠ 0 ∧ x.mode = .first) ∧
    (∃ (h : OrderHead) (body : List Byte) (k : Fin 5) (s : State), s.Ready ∧ Body.fin 5 body 0 = some k ∧ body.length = 1) ∧
    (∃ (h : OrderHead) (body : List Byte) (k : Fin 5) (s : State), s.Ready ∧ Body.fin 5 body 0 = some k ∧ ∃ m, body.length = 2 ∧ Body.stampMode body 1 = some m) :=
  ⟨⟨⟨.last, 255, none, 0⟩, ⟨⟨2024, 5, 6⟩, 8, 0, 0, 0⟩, false, 3, by decide +kernel⟩,
    ⟨⟨.first, 0, none, 0⟩, ⟨⟨2024, 5, 6⟩, 8, 0, 0, 0⟩, false, 3, by decide +kernel⟩,
    ⟨⟨.first, 2, none, 0⟩, ⟨⟨2024, 5, 6⟩, 8, 0, 0, 0⟩, false, 3, by decide +kernel⟩,
    ⟨head, [4], 4, shop, by decide +kernel⟩,
    ⟨head, [4, 1], 4, shop, (by decide +kernel), (by decide +kernel), .last, by decide +kernel⟩⟩

/-- As `pause1`. -/
def pause13 : {n : Nat // n = 13} := ⟨13, by decide +kernel⟩

theorem witness_ProgrammeIsLoaded :
    (∃ (h : OrderHead) (body : List Byte) (steps : List Step) (s : State), s.Ready ∧ Body.programme body = some (steps.map some) ∧ steps.length ≤ 16) ∧
    (∃ (h : OrderHead) (body : List Byte) (steps : List Step) (s : State), s.Ready ∧ Body.programme body = some (steps.map some) ∧ steps.length ≤ 16 ∧ nightRule (sortBy Step.offset steps) = true ∧ s.cpu.run = none) ∧
    (∃ (h : OrderHead) (body : List Byte) (steps : List Step) (s : State), s.Ready ∧ Body.programme body = some (steps.map some) ∧ steps.length ≤ 16 ∧ nightRule (sortBy Step.offset steps) = false) ∧
    (∃ (h : OrderHead) (body : List Byte) (steps : List Step) (s : State), s.Ready ∧ Body.programme body = some (steps.map some) ∧ steps.length ≤ 16 ∧ nightRule (sortBy Step.offset steps) = true ∧ s.cpu.run ≠ none) :=
  ⟨⟨head, [1, 0, 4], [⟨0, .night⟩], shop, by decide +kernel⟩,
    ⟨head, [1, 0, 4], [⟨0, .night⟩], shop, by decide +kernel⟩,
    ⟨head, [2, 0, 4, 5, 2], [⟨0, .night⟩, ⟨5, .sweep⟩], shop, by decide +kernel⟩,
    ⟨head, [1, 0, 4], [⟨0, .night⟩], closing .night, by decide +kernel⟩⟩

theorem witness_RunsBeginAndAreCancelled :
    (∃ (h : OrderHead) (body : List Byte) (s : State), s.Ready ∧ body.length = 2 ∧ (Body.word body 0 ≤ 1439 ∨ Body.word body 0 = 0xFFFF) ∧ s.msu.mode ≠ .trading) ∧
    (∃ (h : OrderHead) (body : List Byte) (s : State), s.Ready ∧ body.length = 2 ∧ (Body.word body 0 ≤ 1439 ∨ Body.word body 0 = 0xFFFF) ∧ s.msu.mode = .trading ∧ s.tmb.timeUnset = true) ∧
    (∃ (h : OrderHead) (body : List Byte) (s : State), s.Ready ∧ body.length = 2 ∧ (Body.word body 0 ≤ 1439 ∨ Body.word body 0 = 0xFFFF) ∧ s.msu.mode = .trading ∧ s.tmb.timeUnset = false ∧ s.cpu.programme = []) ∧
    (∃ (h : OrderHead) (body : List Byte) (s : State), s.Ready ∧ body.length = 2 ∧ (Body.word body 0 ≤ 1439 ∨ Body.word body 0 = 0xFFFF) ∧ ∃ (first : Step) (rest : List Step) (c : Int), s.msu.mode = .trading ∧ s.tmb.timeUnset = false ∧ s.cpu.programme = first :: rest ∧ s.toStore.Calm ∧ s.pnc.state ≠ .nightLock ∧ c = (if Body.word body 0 = 0xFFFF then s.tmb.cal.abs - first.offset * 6000 else instantOf s.tmb.cal.date (Body.word body 0))) ∧
    (∃ (h : OrderHead) (s : State), s.Ready ∧ s.cpu.run = none) ∧
    (∃ (h : OrderHead) (s : State), s.Ready ∧ ∃ r, s.cpu.run = some r) :=
  ⟨⟨head, [255, 255], { shop with msu.mode := .night }, by decide +kernel⟩,
    ⟨head, [5, 159], shop, by decide +kernel⟩,
    ⟨head, [0, 0], clocked, by decide +kernel⟩,
    ⟨head, [255, 255], { clocked with cpu.programme := [⟨0, .night⟩] }, (by decide +kernel), (by decide +kernel), (by decide +kernel), ⟨0, .night⟩, [], clocked.tmb.cal.abs, (by decide +kernel), (by decide +kernel), (by decide +kernel), (calm_of (by decide +kernel) (by decide +kernel) (by decide +kernel)), by decide +kernel⟩,
    ⟨head, shop, by decide +kernel⟩,
    ⟨head, closing .night, (by decide +kernel), ⟨.order, eight, 0, [⟨.pending, .none, []⟩]⟩, by decide +kernel⟩⟩

theorem witness_InstantsAreReached :
    (∃ s : State, openingNext s = true ∧ startNext s = false ∧ stepNext s = false ∧ s.toStore.Calm) ∧
    (∃ s : State, ∃ c, startNext s = true ∧ openingNext s = false ∧ s.tmb.tick.closing = some c ∧ s.msu.mode = .trading ∧ s.toStore.Calm ∧ s.pnc.state ≠ .nightLock) ∧
    (∃ s : State, ∃ (r : Run) (st : Step), s.cpu.run = some r ∧ s.cpu.programme[r.cursor]? = some st ∧ stepNext s = true ∧ openingNext s = false ∧ startNext s = false ∧ (∀ st', s.cpu.programme[r.cursor + 1]? = some st' → s.tmb.tick.cal.abs < r.due st') ∧ st.action = .night ∧ s.toStore.Calm ∧ s.pnc.state ≠ .nightLock) ∧
    (∃ s : State, openingNext s = false) ∧
    (∃ s : State, startNext s = false) ∧
    (∃ s : State, stepNext s = false) :=
  ⟨⟨{ clocked with tmb.today := .times 480 1080, tmb.weekly := Vector.replicate 7 (.times 480 1080) }, (by decide +kernel), (by decide +kernel), (by decide +kernel), (calm_of (by decide +kernel) (by decide +kernel) (by decide +kernel))⟩,
    ⟨{ clocked with tmb.today := .times 300 480, tmb.weekly := Vector.replicate 7 (.times 300 480), cpu.programme := [⟨0, .night⟩], cpu.start := some eight }, eight, (by decide +kernel), (by decide +kernel), (by decide +kernel), (by decide +kernel), (calm_of (by decide +kernel) (by decide +kernel) (by decide +kernel)), by decide +kernel⟩,
    ⟨closing .night, ⟨.order, eight, 0, [⟨.pending, .none, []⟩]⟩, ⟨0, .night⟩, (by decide +kernel), (by decide +kernel), (by decide +kernel), (by decide +kernel), (by decide +kernel), (all_of (by decide +kernel)), (by decide +kernel), (calm_of (by decide +kernel) (by decide +kernel) (by decide +kernel)), by decide +kernel⟩,
    ⟨shop, by decide +kernel⟩,
    ⟨shop, by decide +kernel⟩,
    ⟨shop, by decide +kernel⟩⟩

theorem witness_DueStepsAreTaken :
    (∃ (r : Run) (i : Nat) (st : Step) (s : State), s.cpu.run = some r ∧ r.cursor = i ∧ s.cpu.programme[i]? = some st ∧ stepNext s = true ∧ openingNext s = false ∧ startNext s = false ∧ (∀ st', s.cpu.programme[i + 1]? = some st' → s.tmb.tick.cal.abs < r.due st') ∧ st.action = .night ∧ s.toStore.Calm ∧ s.pnc.state ≠ .nightLock) ∧
    (∃ (r : Run) (i : Nat) (st : Step) (s : State), s.cpu.run = some r ∧ r.cursor = i ∧ s.cpu.programme[i]? = some st ∧ stepNext s = true ∧ openingNext s = false ∧ startNext s = false ∧ (∀ st', s.cpu.programme[i + 1]? = some st' → s.tmb.tick.cal.abs < r.due st') ∧ st.action = .night ∧ s.toStore.Calm ∧ s.pnc.state = .nightLock ∧ s.nightClosed = true ∧ s.cpu.outstanding = false ∧ i < r.steps.length) ∧
    (∃ (r : Run) (i : Nat) (st : Step) (s : State), s.cpu.run = some r ∧ r.cursor = i ∧ s.cpu.programme[i]? = some st ∧ stepNext s = true ∧ openingNext s = false ∧ startNext s = false ∧ (∀ st', s.cpu.programme[i + 1]? = some st' → s.tmb.tick.cal.abs < r.due st') ∧ st.action = .sweep ∧ s.toStore.Calm ∧ s.pnc.state = .nightLock ∧ s.msu.mode = .closing) ∧
    (∃ (r : Run) (i : Nat) (st : Step) (s : State), s.cpu.run = some r ∧ r.cursor = i ∧ s.cpu.programme[i]? = some st ∧ stepNext s = true ∧ openingNext s = false ∧ startNext s = false ∧ (∀ st', s.cpu.programme[i + 1]? = some st' → s.tmb.tick.cal.abs < r.due st') ∧ st.action = .sweep ∧ s.toStore.Calm ∧ s.pnc.state = .running ∧ s.msu.mode = .closing ∧ s.sweepRefusal = none) ∧
    (∃ (r : Run) (i : Nat) (st : Step) (s : State), s.cpu.run = some r ∧ r.cursor = i ∧ s.cpu.programme[i]? = some st ∧ stepNext s = true ∧ openingNext s = false ∧ startNext s = false ∧ (∀ st', s.cpu.programme[i + 1]? = some st' → s.tmb.tick.cal.abs < r.due st') ∧ st.action = .sweep ∧ s.toStore.Calm ∧ s.pnc.state = .halted ∧ s.msu.mode = .closing ∧ s.sweepRefusal = none) ∧
    (∃ (r : Run) (i : Nat) (st : Step) (s : State), s.cpu.run = some r ∧ r.cursor = i ∧ s.cpu.programme[i]? = some st ∧ stepNext s = true ∧ openingNext s = false ∧ startNext s = false ∧ (∀ st', s.cpu.programme[i + 1]? = some st' → s.tmb.tick.cal.abs < r.due st') ∧ ∃ x, st.action = .sweep ∧ s.toStore.Calm ∧ s.pnc.state ≠ .nightLock ∧ s.msu.mode = .closing ∧ s.sweepRefusal = some x) ∧
    (∃ (r : Run) (i : Nat) (st : Step) (s : State), s.cpu.run = some r ∧ r.cursor = i ∧ s.cpu.programme[i]? = some st ∧ stepNext s = true ∧ openingNext s = false ∧ startNext s = false ∧ (∀ st', s.cpu.programme[i + 1]? = some st' → s.tmb.tick.cal.abs < r.due st') ∧ ∃ set, st.action = .grilles set ∧ s.toStore.Calm) ∧
    (∃ (r : Run) (i : Nat) (st : Step) (s : State), s.cpu.run = some r ∧ r.cursor = i ∧ s.cpu.programme[i]? = some st ∧ stepNext s = true ∧ openingNext s = false ∧ startNext s = false ∧ (∀ st', s.cpu.programme[i + 1]? = some st' → s.tmb.tick.cal.abs < r.due st') ∧ ∃ (k : Fin 16) (sp : BitVec 8) (x : Reason), st.action = .announce k sp ∧ s.toStore.Calm ∧ s.msu.mode = .closing ∧ s.announceRefusal k .closing sp = some x) ∧
    (∃ (r : Run) (i : Nat) (st : Step) (s : State), s.cpu.run = some r ∧ r.cursor = i ∧ s.cpu.programme[i]? = some st ∧ stepNext s = true ∧ openingNext s = false ∧ startNext s = false ∧ (∀ st', s.cpu.programme[i + 1]? = some st' → s.tmb.tick.cal.abs < r.due st') ∧ ∃ (k : Fin 16) (sp : BitVec 8) (a : Announcement), st.action = .announce k sp ∧ s.toStore.Calm ∧ s.msu.mode = .closing ∧ s.announceRefusal k .closing sp = none ∧ a = ⟨freeNumber ((s.anp.queue ++ s.anp.playing.toList).map Announcement.number) 255 s.anp.next, k, if sp = 0 then s.anp.scripts[k].speakers else sp, .closing, .programme, false⟩ ∧ (s.anp.state ≠ .idle ∨ s.anp.fire = true)) ∧
    (∃ (r : Run) (i : Nat) (st : Step) (s : State), s.cpu.run = some r ∧ r.cursor = i ∧ s.cpu.programme[i]? = some st ∧ stepNext s = true ∧ openingNext s = false ∧ startNext s = false ∧ (∀ st', s.cpu.programme[i + 1]? = some st' → s.tmb.tick.cal.abs < r.due st') ∧ ∃ (k : Fin 16) (sp : BitVec 8) (a : Announcement), st.action = .announce k sp ∧ s.toStore.Calm ∧ s.msu.mode = .closing ∧ s.announceRefusal k .closing sp = none ∧ a = ⟨freeNumber ((s.anp.queue ++ s.anp.playing.toList).map Announcement.number) 255 s.anp.next, k, if sp = 0 then s.anp.scripts[k].speakers else sp, .closing, .programme, false⟩ ∧ s.anp.state = .idle ∧ s.anp.fire = false) ∧
    (∃ (r : Run) (i : Nat) (st : Step) (s : State), s.cpu.run = some r ∧ r.cursor = i ∧ s.cpu.programme[i]? = some st ∧ stepNext s = true ∧ openingNext s = false ∧ startNext s = false ∧ (∀ st', s.cpu.programme[i + 1]? = some st' → s.tmb.tick.cal.abs < r.due st') ∧ ∃ (code : BellCode) (lines : BitVec 10) (repeats : Nat) (p : Post), st.action = .bell code lines repeats ∧ s.toStore.Calm ∧ s.msu.mode = .closing ∧ p = ⟨code, lines, .closing, repeats, false, false, .programme, false⟩ ∧ ∃ x, s.callRefusal p = some x) ∧
    (∃ (r : Run) (i : Nat) (st : Step) (s : State), s.cpu.run = some r ∧ r.cursor = i ∧ s.cpu.programme[i]? = some st ∧ stepNext s = true ∧ openingNext s = false ∧ startNext s = false ∧ (∀ st', s.cpu.programme[i + 1]? = some st' → s.tmb.tick.cal.abs < r.due st') ∧ ∃ (code : BellCode) (lines : BitVec 10) (repeats : Nat) (p : Post), st.action = .bell code lines repeats ∧ s.toStore.Calm ∧ s.msu.mode = .closing ∧ p = ⟨code, lines, .closing, repeats, false, false, .programme, false⟩ ∧ ∃ n b, s.callRefusal p = none ∧ s.blx.merge p = some (n, b)) ∧
    (∃ (r : Run) (i : Nat) (st : Step) (s : State), s.cpu.run = some r ∧ r.cursor = i ∧ s.cpu.programme[i]? = some st ∧ stepNext s = true ∧ openingNext s = false ∧ startNext s = false ∧ (∀ st', s.cpu.programme[i + 1]? = some st' → s.tmb.tick.cal.abs < r.due st') ∧ ∃ (code : BellCode) (lines : BitVec 10) (repeats : Nat) (p : Post), st.action = .bell code lines repeats ∧ s.toStore.Calm ∧ s.msu.mode = .closing ∧ p = ⟨code, lines, .closing, repeats, false, false, .programme, false⟩ ∧ s.callRefusal p = none ∧ s.blx.merge p = none) ∧
    (∃ (r : Run) (i : Nat) (st : Step) (s : State), s.cpu.run = some r ∧ r.cursor = i ∧ s.cpu.programme[i]? = some st ∧ stepNext s = true ∧ openingNext s = false ∧ startNext s = false ∧ (∀ st', s.cpu.programme[i + 1]? = some st' → s.tmb.tick.cal.abs < r.due st') ∧ s.fzu.fire = true ∧ s.pnc.sweepClaimed = false) ∧
    (∃ (h : OrderHead) (body : List Byte) (c : CalTime) (r : Run) (i : Nat) (st : Step) (s : State), s.Ready ∧ body.length = 8 ∧ Body.calTime body 0 = some c ∧ s.cpu.run = some r ∧ r.cursor = i ∧ s.cpu.programme[i]? = some st ∧ (∀ st', s.cpu.programme[i + 1]? = some st' → c.abs < r.due st') ∧ s.msu.mode = .closing ∧ s.toStore.Calm ∧ 12000 < c.abs - r.due st ∧ (match st.action with | .announce _ _ => True | .bell _ _ _ => True | _ => False)) ∧
    (∃ (h : OrderHead) (body : List Byte) (z : Fin 6) (r : Run) (i : Nat) (st : Step) (s : State), s.Ready ∧ s.FireFollowsZones ∧ body.length = 1 ∧ Body.fin 6 body 0 = some z ∧ s.fzu.zones[z].state = .standing ∧ (∀ x : Fin 6, x ≠ z → s.fzu.zones[x].state = .quiet) ∧ s.msu.mode = .closing ∧ s.cpu.run = some r ∧ (s.cpu.stepsWhere fun _ o => o == .deferred) = [i] ∧ s.cpu.programme[i]? = some st ∧ (s.cpu.stepsWhere fun a o => a == .night && o == .waiting) = [] ∧ (∀ (j : Fin 16) (sh : Shutter), s.shc.stations[j] = some sh → sh.state ≠ .releaseWait ∧ sh.retryWait = false) ∧ st.action = .sweep ∧ s.pnc.state = .nightLock) ∧
    (∃ (h : OrderHead) (body : List Byte) (z : Fin 6) (r : Run) (i : Nat) (st : Step) (s : State), s.Ready ∧ s.FireFollowsZones ∧ body.length = 1 ∧ Body.fin 6 body 0 = some z ∧ s.fzu.zones[z].state = .standing ∧ (∀ x : Fin 6, x ≠ z → s.fzu.zones[x].state = .quiet) ∧ s.msu.mode = .closing ∧ s.cpu.run = some r ∧ (s.cpu.stepsWhere fun _ o => o == .deferred) = [i] ∧ s.cpu.programme[i]? = some st ∧ (s.cpu.stepsWhere fun a o => a == .night && o == .waiting) = [] ∧ (∀ (j : Fin 16) (sh : Shutter), s.shc.stations[j] = some sh → sh.state ≠ .releaseWait ∧ sh.retryWait = false) ∧ st.action = .sweep ∧ s.pnc.state = .estop) ∧
    (∃ (h : OrderHead) (body : List Byte) (z : Fin 6) (r : Run) (i : Nat) (st : Step) (s : State), s.Ready ∧ s.FireFollowsZones ∧ body.length = 1 ∧ Body.fin 6 body 0 = some z ∧ s.fzu.zones[z].state = .standing ∧ (∀ x : Fin 6, x ≠ z → s.fzu.zones[x].state = .quiet) ∧ s.msu.mode = .closing ∧ s.cpu.run = some r ∧ (s.cpu.stepsWhere fun _ o => o == .deferred) = [i] ∧ s.cpu.programme[i]? = some st ∧ (s.cpu.stepsWhere fun a o => a == .night && o == .waiting) = [] ∧ (∀ (j : Fin 16) (sh : Shutter), s.shc.stations[j] = some sh → sh.state ≠ .releaseWait ∧ sh.retryWait = false) ∧ st.action = .sweep ∧ s.pnc.state = .held ∧ { s with pnc := { s.pnc with state := .halted } }.sweepRefusal = none) ∧
    (∃ (h : OrderHead) (body : List Byte) (z : Fin 6) (r : Run) (i : Nat) (st : Step) (s : State), s.Ready ∧ s.FireFollowsZones ∧ body.length = 1 ∧ Body.fin 6 body 0 = some z ∧ s.fzu.zones[z].state = .standing ∧ (∀ x : Fin 6, x ≠ z → s.fzu.zones[x].state = .quiet) ∧ s.msu.mode = .closing ∧ s.cpu.run = some r ∧ (s.cpu.stepsWhere fun _ o => o == .deferred) = [i] ∧ s.cpu.programme[i]? = some st ∧ (s.cpu.stepsWhere fun a o => a == .night && o == .waiting) = [] ∧ (∀ (j : Fin 16) (sh : Shutter), s.shc.stations[j] = some sh → sh.state ≠ .releaseWait ∧ sh.retryWait = false) ∧ ∃ x, st.action = .sweep ∧ s.pnc.state = .held ∧ { s with pnc := { s.pnc with state := .halted } }.sweepRefusal = some x) ∧
    (∃ (h : OrderHead) (body : List Byte) (z : Fin 6) (r : Run) (i : Nat) (st : Step) (s : State), s.Ready ∧ s.FireFollowsZones ∧ body.length = 1 ∧ Body.fin 6 body 0 = some z ∧ s.fzu.zones[z].state = .standing ∧ (∀ x : Fin 6, x ≠ z → s.fzu.zones[x].state = .quiet) ∧ s.msu.mode = .closing ∧ s.cpu.run = some r ∧ (s.cpu.stepsWhere fun _ o => o == .deferred) = [i] ∧ s.cpu.programme[i]? = some st ∧ (s.cpu.stepsWhere fun a o => a == .night && o == .waiting) = [] ∧ (∀ (j : Fin 16) (sh : Shutter), s.shc.stations[j] = some sh → sh.state ≠ .releaseWait ∧ sh.retryWait = false) ∧ ∃ set, st.action = .grilles set ∧ (s.pnc.state = .nightLock ∨ s.pnc.state = .estop ∨ s.pnc.state = .held)) ∧
    (∃ s t : State, s.DeferredHeld ∧ step s = .next t) :=
  ⟨⟨⟨.order, eight, 0, [⟨.pending, .none, []⟩]⟩, 0, ⟨0, .night⟩, closing .night, (by decide +kernel), (by decide +kernel), (by decide +kernel), (by decide +kernel), (by decide +kernel), (by decide +kernel), (all_of (by decide +kernel)), (by decide +kernel), (calm_of (by decide +kernel) (by decide +kernel) (by decide +kernel)), by decide +kernel⟩,
    ⟨⟨.order, eight, 0, [⟨.pending, .none, []⟩]⟩, 0, ⟨0, .night⟩, { closing .night with pnc.state := .nightLock }, (by decide +kernel), (by decide +kernel), (by decide +kernel), (by decide +kernel), (by decide +kernel), (by decide +kernel), (all_of (by decide +kernel)), (by decide +kernel), (calm_of (by decide +kernel) (by decide +kernel) (by decide +kernel)), by decide +kernel⟩,
    ⟨⟨.order, eight, 0, [⟨.pending, .none, []⟩]⟩, 0, ⟨0, .sweep⟩, { closing .sweep with pnc.state := .nightLock }, (by decide +kernel), (by decide +kernel), (by decide +kernel), (by decide +kernel), (by decide +kernel), (by decide +kernel), (all_of (by decide +kernel)), (by decide +kernel), (calm_of (by decide +kernel) (by decide +kernel) (by decide +kernel)), by decide +kernel⟩,
    ⟨⟨.order, eight, 0, [⟨.pending, .none, []⟩]⟩, 0, ⟨0, .sweep⟩, { closing .sweep with pnc.state := .running, out.demand := .service }, (by decide +kernel), (by decide +kernel), (by decide +kernel), (by decide +kernel), (by decide +kernel), (by decide +kernel), (all_of (by decide +kernel)), (by decide +kernel), (calm_of (by decide +kernel) (by decide +kernel) (by decide +kernel)), by decide +kernel⟩,
    ⟨⟨.order, eight, 0, [⟨.pending, .none, []⟩]⟩, 0, ⟨0, .sweep⟩, closing .sweep, (by decide +kernel), (by decide +kernel), (by decide +kernel), (by decide +kernel), (by decide +kernel), (by decide +kernel), (all_of (by decide +kernel)), (by decide +kernel), (calm_of (by decide +kernel) (by decide +kernel) (by decide +kernel)), by decide +kernel⟩,
    ⟨⟨.order, eight, 0, [⟨.pending, .none, []⟩]⟩, 0, ⟨0, .sweep⟩, { closing .sweep with cht.clearList := [] }, (by decide +kernel), (by decide +kernel), (by decide +kernel), (by decide +kernel), (by decide +kernel), (by decide +kernel), (all_of (by decide +kernel)), .state, (by decide +kernel), (calm_of (by decide +kernel) (by decide +kernel) (by decide +kernel)), by decide +kernel⟩,
    ⟨⟨.order, eight, 0, [⟨.pending, .none, []⟩]⟩, 0, ⟨0, (.grilles 3)⟩, (withDoor (door .grille .opened) (closing (.grilles 3))), (by decide +kernel), (by decide +kernel), (by decide +kernel), (by decide +kernel), (by decide +kernel), (by decide +kernel), (all_of (by decide +kernel)), 3, (by decide +kernel), (calm_of (by decide +kernel) (by decide +kernel) (by decide +kernel))⟩,
    ⟨⟨.order, eight, 0, [⟨.pending, .none, []⟩]⟩, 0, ⟨0, (.announce 0 0)⟩, closing (.announce 0 0), (by decide +kernel), (by decide +kernel), (by decide +kernel), (by decide +kernel), (by decide +kernel), (by decide +kernel), (all_of (by decide +kernel)), 0, 0, .range, (by decide +kernel), (calm_of (by decide +kernel) (by decide +kernel) (by decide +kernel)), by decide +kernel⟩,
    ⟨⟨.order, eight, 0, [⟨.pending, .none, []⟩]⟩, 0, ⟨0, (.announce 0 0)⟩, { closing (.announce 0 0) with anp.scripts := put Anp.reset.scripts 0 ⟨[⟨1, 2, 10⟩], false, 1⟩, anp.state := .gap }, (by decide +kernel), (by decide +kernel), (by decide +kernel), (by decide +kernel), (by decide +kernel), (by decide +kernel), (all_of (by decide +kernel)), 0, 0, ⟨1, 0, 1, .closing, .programme, false⟩, (by decide +kernel), (calm_of (by decide +kernel) (by decide +kernel) (by decide +kernel)), by decide +kernel⟩,
    ⟨⟨.order, eight, 0, [⟨.pending, .none, []⟩]⟩, 0, ⟨0, (.announce 0 0)⟩, { closing (.announce 0 0) with anp.scripts := put Anp.reset.scripts 0 ⟨[⟨1, 2, 10⟩], false, 1⟩ }, (by decide +kernel), (by decide +kernel), (by decide +kernel), (by decide +kernel), (by decide +kernel), (by decide +kernel), (all_of (by decide +kernel)), 0, 0, ⟨1, 0, 1, .closing, .programme, false⟩, (by decide +kernel), (calm_of (by decide +kernel) (by decide +kernel) (by decide +kernel)), by decide +kernel⟩,
    ⟨⟨.order, eight, 0, [⟨.pending, .none, []⟩]⟩, 0, ⟨0, (.bell [2] 1 3)⟩, { closing (.bell [2] 1 3) with msu.source := .reserve }, (by decide +kernel), (by decide +kernel), (by decide +kernel), (by decide +kernel), (by decide +kernel), (by decide +kernel), (all_of (by decide +kernel)), [2], 1, 3, ⟨[2], 1, .closing, 3, false, false, .programme, false⟩, (by decide +kernel), (calm_of (by decide +kernel) (by decide +kernel) (by decide +kernel)), (by decide +kernel), (by decide +kernel), .power, by decide +kernel⟩,
    ⟨⟨.order, eight, 0, [⟨.pending, .none, []⟩]⟩, 0, ⟨0, (.bell [2] 1 3)⟩, { closing (.bell [2] 1 3) with blx.queue := [{ ordinary false .closing false with repeats := 3, remaining := 3 }], blx.ringers := Vector.replicate 3 ⟨.striking, some .evac, 0x3FF, ⟨[1], 0, 0, true⟩, some 100⟩ }, (by decide +kernel), (by decide +kernel), (by decide +kernel), (by decide +kernel), (by decide +kernel), (by decide +kernel), (all_of (by decide +kernel)), [2], 1, 3, ⟨[2], 1, .closing, 3, false, false, .programme, false⟩, (by decide +kernel), (calm_of (by decide +kernel) (by decide +kernel) (by decide +kernel)), (by decide +kernel), (by decide +kernel), 5, (mergedBlx { closing (.bell [2] 1 3) with blx.queue := [{ ordinary false .closing false with repeats := 3, remaining := 3 }], blx.ringers := Vector.replicate 3 ⟨.striking, some .evac, 0x3FF, ⟨[1], 0, 0, true⟩, some 100⟩ }.blx ⟨[2], 1, .closing, 3, false, false, .programme, false⟩), by decide +kernel⟩,
    ⟨⟨.order, eight, 0, [⟨.pending, .none, []⟩]⟩, 0, ⟨0, (.bell [2] 1 3)⟩, closing (.bell [2] 1 3), (by decide +kernel), (by decide +kernel), (by decide +kernel), (by decide +kernel), (by decide +kernel), (by decide +kernel), (all_of (by decide +kernel)), [2], 1, 3, ⟨[2], 1, .closing, 3, false, false, .programme, false⟩, (by decide +kernel), (calm_of (by decide +kernel) (by decide +kernel) (by decide +kernel)), by decide +kernel⟩,
    ⟨⟨.order, eight, 0, [⟨.pending, .none, []⟩]⟩, 0, ⟨0, .sweep⟩, (withZone ⟨true, 1, .alarmed, true⟩ (closing .sweep)), (by decide +kernel), (by decide +kernel), (by decide +kernel), (by decide +kernel), (by decide +kernel), (by decide +kernel), (all_of (by decide +kernel)), by decide +kernel⟩,
    ⟨head, [7, 232, 5, 6, 8, 2, 0, 1], ⟨⟨2024, 5, 6⟩, 8, 2, 0, 1⟩, ⟨.order, eight, 0, [⟨.pending, .none, []⟩]⟩, 0, ⟨0, (.bell [2] 1 3)⟩, (closing (.bell [2] 1 3)), (by decide +kernel), (by decide +kernel), (by decide +kernel), (by decide +kernel), (by decide +kernel), (by decide +kernel), (all_of (by decide +kernel)), (by decide +kernel), (calm_of (by decide +kernel) (by decide +kernel) (by decide +kernel)), by decide +kernel⟩,
    ⟨head, [0], 0, ⟨.order, eight, 1, [⟨.deferred, .none, []⟩]⟩, 0, ⟨0, .sweep⟩, (withZone ⟨true, 1, .standing, false⟩ { closing .sweep with cpu.run := some ⟨.order, eight, 1, [⟨.deferred, .none, []⟩]⟩, pnc.state := .nightLock }), by decide +kernel⟩,
    ⟨head, [0], 0, ⟨.order, eight, 1, [⟨.deferred, .none, []⟩]⟩, 0, ⟨0, .sweep⟩, (withZone ⟨true, 1, .standing, false⟩ { closing .sweep with cpu.run := some ⟨.order, eight, 1, [⟨.deferred, .none, []⟩]⟩, pnc.state := .estop }), by decide +kernel⟩,
    ⟨head, [0], 0, ⟨.order, eight, 1, [⟨.deferred, .none, []⟩]⟩, 0, ⟨0, .sweep⟩, (withZone ⟨true, 1, .standing, false⟩ { closing .sweep with cpu.run := some ⟨.order, eight, 1, [⟨.deferred, .none, []⟩]⟩, pnc.state := .held }), by decide +kernel⟩,
    ⟨head, [0], 0, ⟨.order, eight, 1, [⟨.deferred, .none, []⟩]⟩, 0, ⟨0, .sweep⟩, (withZone ⟨true, 1, .standing, false⟩ { closing .sweep with cpu.run := some ⟨.order, eight, 1, [⟨.deferred, .none, []⟩]⟩, pnc.state := .held, lines.drvReady := false }), (by decide +kernel), (by decide +kernel), (by decide +kernel), (by decide +kernel), (by decide +kernel), (by decide +kernel), (by decide +kernel), (by decide +kernel), (by decide +kernel), (by decide +kernel), (by decide +kernel), (by decide +kernel), .notReady, by decide +kernel⟩,
    ⟨head, [0], 0, ⟨.order, eight, 1, [⟨.deferred, .none, []⟩]⟩, 0, ⟨0, (.grilles 3)⟩, (withZone ⟨true, 1, .standing, false⟩ { closing (.grilles 3) with cpu.run := some ⟨.order, eight, 1, [⟨.deferred, .none, []⟩]⟩, pnc.state := .held }), (by decide +kernel), (by decide +kernel), (by decide +kernel), (by decide +kernel), (by decide +kernel), (by decide +kernel), (by decide +kernel), (by decide +kernel), (by decide +kernel), (by decide +kernel), (by decide +kernel), (by decide +kernel), 3, by decide +kernel⟩,
    ⟨{ fireShop with pending := [.battLowSet] }, (nextOf (step { fireShop with pending := [.battLowSet] })), (by decide +kernel), (next_of (by decide +kernel))⟩⟩

theorem witness_ReadingOrdersReport :
    (∃ (h : OrderHead) (s : State), s.Ready ∧ ∃ (body : List Byte) (i : Fin 8), body.length = 1 ∧ Body.fin 8 body 0 = some i) ∧
    (∃ (h : OrderHead) (s : State), s.Ready ∧ ∃ body : List Byte, body.length = 1 ∧ Body.fin 8 body 0 = none) ∧
    (∃ (h : OrderHead) (s : State), s.Ready ∧ ∃ body : List Byte, body.length ≠ 1) ∧
    (∃ (h : OrderHead) (s : State), s.Ready) ∧
    (∃ (h : OrderHead) (body : List Byte) (i : Fin 16) (s : State), s.Ready ∧ body.length = 1 ∧ Body.fin 16 body 0 = some i) ∧
    (∃ (h : OrderHead) (s : State), s.Ready ∧ ∃ (body : List Byte) (k : Fin 64), body.length = 1 ∧ Body.fin 64 body 0 = some k) ∧
    (∃ (h : OrderHead) (s : State), s.Ready ∧ ∃ body : List Byte, body.length = 1 ∧ Body.fin 64 body 0 = none) ∧
    (∃ (h : OrderHead) (s : State), s.Ready ∧ ∃ (body : List Byte) (k : Fin 16), body.length = 1 ∧ Body.fin 16 body 0 = some k) :=
  ⟨⟨head, shop, (by decide +kernel), [0], 0, by decide +kernel⟩,
    ⟨head, shop, (by decide +kernel), [8], by decide +kernel⟩,
    ⟨head, shop, (by decide +kernel), [], by decide +kernel⟩,
    ⟨head, shop, by decide +kernel⟩,
    ⟨head, [0], 0, withDoor (door .fire .opened) shop, by decide +kernel⟩,
    ⟨head, shop, (by decide +kernel), [0], 0, by decide +kernel⟩,
    ⟨head, shop, (by decide +kernel), [64], by decide +kernel⟩,
    ⟨head, shop, (by decide +kernel), [0], 0, by decide +kernel⟩⟩

end Sys2Proof.Tests
end

