-- ==== Sys2Proof/Proofs/StoreModes.lean ====
section
/-! PROOFS. Store modes: COMMENCE (R2), WAKE and CLEAR-WAKE (R10, R13, R14). First what the orders of the Mode and
Supply Unit share, then the wake latch, then the settled statements. -/
namespace Sys2Proof.Machine

/-! ## An order with an empty body -/

/-- An empty body passes the form check of an order that takes none. -/
theorem firstFailure_formed_nil (held : Bool) (tag code : Byte) (rest : List (Bool × Reason)) :
    firstFailure (formed ⟨held, tag, code, []⟩ 0 :: rest) = firstFailure rest := rfl

/-- A body that is not empty fails it. -/
theorem firstFailure_formed_nonempty {body : List Byte} (hb : body ≠ []) (held : Bool) (tag code : Byte)
    (rest : List (Bool × Reason)) : firstFailure (formed ⟨held, tag, code, body⟩ 0 :: rest) = some .form := by
  obtain ⟨b, bs, rfl⟩ := List.exists_cons_of_ne_nil hb
  rfl

/-! ## A change of the Mode and Supply Unit alone -/

/-- Whether a store is calm does not depend on the Mode and Supply Unit. -/
theorem Store.Calm.withMsu {st : Store} (c : st.Calm) (u : Msu) : ({ st with msu := u } : Store).Calm :=
  ⟨⟨c.noFire, c.noSettle, c.noRelease, c.noDeferred, c.noNight⟩, c.noHead, c.noAssign⟩

/-- Outside CLOSING there is no run (R163). -/
theorem State.RunIffClosing.run_none {s : State} (hr : s.RunIffClosing) (hm : s.msu.mode ≠ .closing) :
    s.cpu.run = none := by
  cases h : s.cpu.run with
  | none => rfl
  | some run => exact absurd (hr.mp (by rw [h]; rfl)) hm

namespace Ev

/-- A block that has not moved the paternoster has no paternoster state to report (R40). -/
theorem pnOffers_unmoved {e : Ev} (h : e.pnc.state = e.pn0) (hf : e.pnForce = false) : e.pnOffers = [] := by
  simp [pnOffers, h, hf]

/-- An event that names no cause of a mode change reports none (R8). -/
theorem modeOffers_none {e : Ev} (h : e.modeCause = none) : e.modeOffers = [] := by
  simp [modeOffers, h]

/-! ## COMMENCE's table of checks (R2) -/

/-- The third check: every landing a shutter names is present. -/
theorem linkMissing_begin (s : State) : (Ev.begin s.toEnv s.toStore).linkMissing = false ↔ s.LinksPresent := by
  unfold linkMissing
  rw [someShutter_eq_false]
  constructor
  · intro h i sh l hs hl
    simpa [hl] using h i sh hs
  · intro h i sh hs
    cases hl : sh.landing with
    | none => rfl
    | some l => simpa using h i sh l hs hl

/-- The fourth check: the fire script, when named, holds an item. -/
theorem fireScriptEmpty_begin (s : State) :
    (Ev.begin s.toEnv s.toStore).fireScriptEmpty = false ↔ s.FireScriptHolds := by
  show (s.fzu.fireScript.any fun k => s.anp.scripts[k].items.isEmpty) = false ↔ _
  cases hk : s.fzu.fireScript <;> simp [State.FireScriptHolds, hk]

end Ev

/-- Out of SETUP the order is refused before its four checks. -/
theorem orderCommence_otherMode {held : Bool} {tag code : Byte} {e : Ev} (hm : e.msu.mode ≠ .setup) :
    orderCommence ⟨held, tag, code, []⟩ e = .refused .mode [] :=
  OrderResult.after_failed (by rw [firstFailure_formed_nil]; simp [firstFailure_cons, hm])

/-- In SETUP the four checks decide, in their order. -/
theorem orderCommence_setup {held : Bool} {tag code : Byte} {s : State} (hm : s.msu.mode = .setup) :
    let e := Ev.begin s.toEnv s.toStore
    orderCommence ⟨held, tag, code, []⟩ e =
      if s.cht.settings.loopLength = 0 then .refused .range [1]
      else if s.cht.settings.cars = 0 then .refused .range [2]
      else if e.linkMissing then .refused .range [3]
      else if e.fireScriptEmpty then .refused .range [4]
      else .acted .done none [] s.toEnv (e.setMode .trading .commence) :=
  OrderResult.after_passed (by rw [firstFailure_formed_nil]; simp [firstFailure_cons, hm])

/-- The four checks of COMMENCE hold (R2). -/
structure State.MayCommence (s : State) : Prop where
  mode : s.msu.mode = .setup
  loop : s.cht.settings.loopLength ≠ 0
  cars : s.cht.settings.cars ≠ 0
  links : s.LinksPresent
  script : s.FireScriptHolds

section Commence
variable {s : State} {h : OrderHead}

/-- COMMENCE accepted is the change to TRADING with all that follows it at the end of the event. -/
theorem exec_commence_accepted (r : s.Ready) (c : s.MayCommence) :
    exec (.commence h []) s = .next (settleOrder ⟨h.held, h.tag, 0x02, []⟩
      (.acted .done none [] s.toEnv ((Ev.begin s.toEnv s.toStore).setMode .trading .commence)) s.received) := by
  have hl : (Ev.begin s.toEnv s.toStore).linkMissing = false := (Ev.linkMissing_begin s).mpr c.links
  have hf : (Ev.begin s.toEnv s.toStore).fireScriptEmpty = false := (Ev.fireScriptEmpty_begin s).mpr c.script
  rw [exec_commence r, orderCommence_setup c.mode, if_neg c.loop, if_neg c.cars, if_neg (by simp [hl]),
    if_neg (by simp [hf])]

/-- In a calm store the change of mode and its notice are all of it. -/
theorem exec_commence_calm (r : s.Ready) (c : s.MayCommence) (q : s.toStore.Calm) :
    exec (.commence h []) s = .next (s.holding { s.toStore with msu := { s.msu with mode := .trading } }
      ((s.lnk.answered h 0x02 .done .none []).offer (.mode .setup .trading .commence false 0))) := by
  have hpn : ((Ev.begin s.toEnv s.toStore).setMode .trading .commence).pnOffers = [] := Ev.pnOffers_unmoved rfl rfl
  have hmode : ((Ev.begin s.toEnv s.toStore).setMode .trading .commence).modeOffers =
      [.notice (.mode .setup .trading .commence false 0)] := by
    simp [Ev.modeOffers, Ev.setMode, c.mode]
  have hcalm : ((Ev.begin s.toEnv s.toStore).setMode .trading .commence).toStore.Calm := q.withMsu _
  rw [exec_commence_accepted r c, settle_acted s h 0x02 [] .done [] s.toEnv hcalm, hpn, hmode, ← Lnk.takeAll_notice]
  rfl

/-- In any store with no run it takes the mode to TRADING, keeps the settings and is answered DONE. -/
theorem exec_commence_any (r : s.Ready) (c : s.MayCommence) (hr : s.RunIffClosing) :
    ∃ t, exec (.commence h []) s = .next t ∧ t.msu.mode = .trading ∧ s.SameSettings t ∧
      s.Answers t h 0x02 .done .none [] := by
  have hrun : s.cpu.run = none := hr.run_none (by rw [c.mode]; decide)
  have hmsu := (Ev.conclude_idle (e := (Ev.begin s.toEnv s.toStore).setMode .trading .commence) hrun).1
  refine ⟨_, exec_commence_accepted r c, ?_, acted_sameSettings rfl rfl rfl rfl rfl rfl rfl, acted_answers ..⟩
  rw [acted_msu, hmsu]
  rfl

end Commence

/-- Settles O14: the refusals are read off the order's table of checks, the acceptance off `exec_commence_accepted`. -/
theorem commenceChecksAndEntersTrading : Obligations.CommenceChecksAndEntersTrading := by
  unfold Obligations.CommenceChecksAndEntersTrading
  intro h s r
  refine ⟨?_, ?_, ?_, ?_, ?_, ?_, ?_, ?_⟩
  · intro hm
    rw [exec_commence r, orderCommence_otherMode hm, settle_refused]
  · intro hm hloop
    rw [exec_commence r, orderCommence_setup hm, if_pos hloop, settle_refused]
  · intro hm hloop hcars
    rw [exec_commence r, orderCommence_setup hm, if_neg hloop, if_pos hcars, settle_refused]
  · intro hm hloop hcars hlinks
    have hmissing : (Ev.begin s.toEnv s.toStore).linkMissing = true := by
      rwa [← Ev.linkMissing_begin, Bool.not_eq_false] at hlinks
    rw [exec_commence r, orderCommence_setup hm, if_neg hloop, if_neg hcars, if_pos hmissing, settle_refused]
  · intro hm hloop hcars hlinks hscript
    have hpresent : (Ev.begin s.toEnv s.toStore).linkMissing = false := (Ev.linkMissing_begin s).mpr hlinks
    have hempty : (Ev.begin s.toEnv s.toStore).fireScriptEmpty = true := by
      rwa [← Ev.fireScriptEmpty_begin, Bool.not_eq_false] at hscript
    rw [exec_commence r, orderCommence_setup hm, if_neg hloop, if_neg hcars, if_neg (by simp [hpresent]),
      if_pos hempty, settle_refused]
  · exact fun hm hloop hcars hlinks hscript q => exec_commence_calm r ⟨hm, hloop, hcars, hlinks, hscript⟩ q
  · exact fun hm hloop hcars hlinks hscript hr => exec_commence_any r ⟨hm, hloop, hcars, hlinks, hscript⟩ hr
  · intro body hb
    rw [exec_commence r, orderCommence, OrderResult.after_failed (firstFailure_formed_nonempty hb _ _ _ _),
      settle_refused]

/-! ## The wake latch (R10, R13) -/

namespace Ev

/-- Where no call is of the classes, none ends (R123). -/
theorem purge_absent {classes : CallClass → Bool} {r : Reason} {e : Ev}
    (h : ∀ c ∈ e.blx.calls, classes c.cls = false) : e.purge classes r = e := by
  have hgone : (e.blx.calls.filter fun c => classes c.cls) = [] := by
    simpa [List.filter_eq_nil_iff] using h
  have hqueue : (e.blx.queue.filter fun c => !classes c.cls) = e.blx.queue := by
    refine List.filter_eq_self.mpr fun c hc => ?_
    simp [h c (List.mem_append_left _ hc)]
  have hringers : (List.finRange 3).foldl
      (fun b r => if (b.callOf r).any fun c => classes c.cls then b.giveUp r else b) e.blx = e.blx := by
    refine foldl_id _ _ _ fun i _ => if_neg ?_
    cases hc : e.blx.callOf i with
    | none => simp
    | some c =>
      have hheld : c ∈ e.blx.heldCalls := List.mem_filterMap.mpr ⟨i, List.mem_finRange i, hc⟩
      simp [h c (List.mem_append_right _ hheld)]
  simp only [purge, setBlx, hgone, hringers, hqueue, forEach, List.foldl_nil]

/-- In CLOSING the cause joins the latch and nothing else changes. -/
theorem latch_closing {cause : BitVec 3} {e : Ev} (h : e.msu.mode = .closing) :
    e.latch cause = e.setMsu fun u => { u with wake := u.wake ||| cause } := by
  simp [latch, h]

/-- In NIGHT, before any other change of mode in the event, the cause takes the store to TRADING. -/
theorem latch_night {cause : BitVec 3} {e : Ev} (h : e.msu.mode = .night) (hc : e.modeCause = none) :
    e.latch cause =
      { (e.setMsu fun u => { u with wake := u.wake ||| cause }).handWake with modeCause := some .wake } := by
  simp [latch, h, hc]

/-- In both the latch comes to hold the cause beside what it held. -/
theorem latch_wake {cause : BitVec 3} {e : Ev} (h : e.msu.mode = .closing ∨ e.msu.mode = .night) :
    (e.latch cause).msu.wake = e.msu.wake ||| cause := by
  rcases h with h | h
  · simp [latch_closing h]
  · simp only [latch, h]
    split <;> simp

/-- The return from NIGHT with no WATCH call in being is the change of mode alone (R7, R123). -/
theorem handWake_noWatch {e : Ev} (h : ∀ c ∈ e.blx.calls, c.cls ≠ .watch) :
    e.handWake = e.setMsu fun u => { u with mode := .trading } :=
  purge_absent (e := e.setMsu fun u => { u with mode := .trading }) fun c hc => by simpa using h c hc

/-- With no WATCH call in being the latch, the mode and its cause are all that such a wake changes. -/
theorem latch_night_noWatch {cause : BitVec 3} {e : Ev} (h : e.msu.mode = .night) (hc : e.modeCause = none)
    (hw : ∀ c ∈ e.blx.calls, c.cls ≠ .watch) :
    e.latch cause =
      { e with msu := { e.msu with mode := .trading, wake := e.msu.wake ||| cause }, modeCause := some .wake } := by
  rw [latch_night h hc, handWake_noWatch (e := e.setMsu fun u => { u with wake := u.wake ||| cause }) hw]
  rfl

end Ev

/-- WAKE in CLOSING or NIGHT latches HOST_WAKE. -/
theorem orderWake_latches {held : Bool} {tag code : Byte} {e : Ev}
    (hm : e.msu.mode = .closing ∨ e.msu.mode = .night) :
    orderWake ⟨held, tag, code, []⟩ e = .did e (e.latch hostWake) [] :=
  OrderResult.after_passed (by rw [firstFailure_formed_nil]; simp [firstFailure_cons, hm])

/-- In SETUP and TRADING it is refused. -/
theorem orderWake_otherMode {held : Bool} {tag code : Byte} {e : Ev}
    (hm : e.msu.mode = .setup ∨ e.msu.mode = .trading) :
    orderWake ⟨held, tag, code, []⟩ e = .refused .mode [] := by
  refine OrderResult.after_failed ?_
  rw [firstFailure_formed_nil, firstFailure_cons]
  rcases hm with hm | hm <;> simp [hm]

section Wake
variable {s : State} {h : OrderHead}

/-- WAKE accepted is the latching of HOST_WAKE with all that follows it at the end of the event. -/
theorem exec_wake_latches (r : s.Ready) (hm : s.msu.mode = .closing ∨ s.msu.mode = .night) :
    exec (.wake h []) s = .next (settleOrder ⟨h.held, h.tag, 0x04, []⟩
      (.acted .done none [] s.toEnv ((Ev.begin s.toEnv s.toStore).latch hostWake)) s.received) := by
  rw [exec_wake r, orderWake_latches hm]
  rfl

/-- In a calm store in CLOSING the latch is all that changes. -/
theorem exec_wake_closing (r : s.Ready) (hm : s.msu.mode = .closing) (q : s.toStore.Calm) :
    exec (.wake h []) s = .next (s.holding { s.toStore with msu := { s.msu with wake := s.msu.wake ||| 1 } }
      (s.lnk.answered h 0x04 .done .none [])) := by
  rw [exec_wake_latches r (.inl hm), Ev.latch_closing (e := Ev.begin s.toEnv s.toStore) hm,
    settle_acted s h 0x04 [] .done [] s.toEnv (q.withMsu _), Ev.pnOffers_unmoved rfl rfl, Ev.modeOffers_none rfl]
  rfl

/-- In a calm store in NIGHT with no WATCH call, the latch and the mode change, with the notice of it. -/
theorem exec_wake_night (r : s.Ready) (hm : s.msu.mode = .night) (q : s.toStore.Calm)
    (hw : ∀ c ∈ s.blx.calls, c.cls ≠ .watch) :
    exec (.wake h []) s = .next
      (s.holding { s.toStore with msu := { s.msu with mode := .trading, wake := s.msu.wake ||| 1 } }
        ((s.lnk.answered h 0x04 .done .none []).offer (.mode .night .trading .wake false (s.msu.wake ||| 1)))) := by
  have hlatch := Ev.latch_night_noWatch (cause := hostWake) (e := Ev.begin s.toEnv s.toStore) hm rfl hw
  have hcalm : ((Ev.begin s.toEnv s.toStore).latch hostWake).toStore.Calm := by
    rw [hlatch]; exact q.withMsu _
  have hpn : ((Ev.begin s.toEnv s.toStore).latch hostWake).pnOffers = [] := by
    rw [hlatch]; exact Ev.pnOffers_unmoved rfl rfl
  have hmode : ((Ev.begin s.toEnv s.toStore).latch hostWake).modeOffers =
      [.notice (.mode .night .trading .wake false (s.msu.wake ||| 1))] := by
    rw [hlatch]; simp [Ev.modeOffers, hm, hostWake]
  rw [exec_wake_latches r (.inr hm), settle_acted s h 0x04 [] .done [] s.toEnv hcalm, hpn, hmode,
    ← Lnk.takeAll_notice, hlatch]
  rfl

/-- In any store WAKE leaves HOST_WAKE in the latch, ends the NIGHT, keeps the settings and is answered DONE. -/
theorem exec_wake_any (r : s.Ready) (hm : s.msu.mode = .closing ∨ s.msu.mode = .night) :
    ∃ t, exec (.wake h []) s = .next t ∧ t.msu.wake = s.msu.wake ||| 1 ∧
      (s.RunIffClosing → s.msu.mode = .night → t.msu.mode = .trading) ∧ s.SameSettings t ∧
      s.Answers t h 0x04 .done .none [] := by
  refine ⟨_, exec_wake_latches r hm, ?_, ?_, acted_sameSettings ?_ ?_ ?_ ?_ ?_ ?_ ?_, acted_answers ..⟩
  · rw [acted_msu]
    simpa [hostWake] using Ev.latch_wake (e := Ev.begin s.toEnv s.toStore) (cause := hostWake) hm
  · intro hr hn
    have hrun : s.cpu.run = none := hr.run_none (by rw [hn]; decide)
    rw [acted_msu, (Ev.conclude_idle (by simpa using hrun)).1, Ev.latch_night hn rfl]
    simp [Ev.handWake]
  all_goals simp

end Wake

/-- Settles O15: one lemma for each mode WAKE finds; CLEAR-WAKE acts on the latch alone. -/
theorem wakeLatchOrders : Obligations.WakeLatchOrders := by
  unfold Obligations.WakeLatchOrders
  intro h s r
  refine ⟨?_, exec_wake_closing r, exec_wake_night r, exec_wake_any r, ?_, ?_⟩
  · intro hm
    rw [exec_wake r, orderWake_otherMode hm, settle_refused]
  · intro body hb
    rw [exec_wake r, orderWake, OrderResult.after_failed (firstFailure_formed_nonempty hb _ _ _ _), settle_refused]
  · rw [exec_clearWake r, orderClearWake, OrderResult.after_passed (firstFailure_formed_nil _ _ _ _)]
    exact congrArg Host.Outcome.next (settle_quiet s h 0x05 [] _ _ [] _)

end Sys2Proof.Machine
end

section
/-! PROOFS. Paternoster control: PN-HALT (R54). First what an emergency stop does to the paternoster in each state it
finds (R53), then what an order leaves that ends in a stopped paternoster, then the settled statement. -/
namespace Sys2Proof.Machine

/-! ## Joining a cause to a set (R39, R53) -/

/-- A set that holds a member already is what it becomes with it. -/
theorem adjoin_of_getLsbD {n : Nat} {s : BitVec n} {m : Nat} (h : s.getLsbD m = true) : adjoin s m = s := by
  refine BitVec.eq_of_getLsbD_eq fun i _ => ?_
  rw [getLsbD_adjoin s m i (BitVec.lt_of_getLsbD h)]
  by_cases hi : i = m <;> simp [hi, h]

/-- A cause the set holds already adds nothing. -/
theorem CauseSet.add_of_mem {c : CauseSet} {x : Cause} (h : c.mem x = true) : c.add x = c := by
  cases x with
  | cord l | guard l | sillMismatch l | shutterMoved l => rw [CauseSet.add, adjoin_of_getLsbD h]
  | driveFault | chainSlip | creepTimeout | stopMissed | clearance | host =>
    cases c; simp_all [CauseSet.mem, CauseSet.add]

namespace Ev

/-! ## What an emergency stop comes to (R53) -/

/-- In ESTOP the cause joins the set and the paternoster keeps everything else. -/
theorem estop_joins {c : Cause} {e : Ev} (h : e.pnc.state = .estop) :
    (e.estop c).pnc = { e.pnc with causes := e.pnc.causes.add c } := by
  unfold estop
  rw [h]
  dsimp only
  split
  next held => rw [CauseSet.add_of_mem held]
  next => rfl

/-- Out of LOCKED_OUT and POWER_STOP an emergency stop leaves the paternoster in ESTOP. -/
theorem estop_state {c : Cause} {e : Ev} (hl : e.pnc.state ≠ .lockedOut) (hp : e.pnc.state ≠ .powerStop) :
    (e.estop c).pnc.state = .estop := by
  by_cases h : e.pnc.state = .estop
  · rw [estop_joins h]; exact h
  · rw [estop_enters h hl hp]; exact (enterEstop_pnc c e).1

end Ev

/-- An order whose claims leave the paternoster in ESTOP: it stays as they made it to the end of the event, with the
demand OFF (R40). -/
theorem acted_estop {s : State} {o : RxOrder} {out : Outcome} {op : Option HeldOp} {data : List Byte} {v : Env} {e : Ev}
    (h : e.pnc.state = .estop) :
    (settleOrder o (.acted out op data v e) s).pnc = e.pnc ∧
      (settleOrder o (.acted out op data v e) s).out.demand = .off := by
  have hpnc : e.conclude.pnc = e.pnc := (Ev.conclude_stopped (.inl h)).1
  rw [acted_pnc, acted_demand, hpnc, h]
  exact ⟨rfl, rfl⟩

/-! ## PN-HALT (R54) -/

/-- In LOCKED_OUT and POWER_STOP, which ESTOP is not entered from, the order is refused. -/
theorem orderPnHalt_refused {held : Bool} {tag code : Byte} {e : Ev}
    (hm : e.pnc.state = .lockedOut ∨ e.pnc.state = .powerStop) :
    orderPnHalt ⟨held, tag, code, []⟩ e = .refused .state [] := by
  refine OrderResult.after_failed ?_
  rw [firstFailure_formed_nil, firstFailure_cons]
  rcases hm with hm | hm <;> simp [hm]

/-- In every other state it claims the emergency stop with cause HOST. -/
theorem orderPnHalt_accepted {held : Bool} {tag code : Byte} {e : Ev} (hl : e.pnc.state ≠ .lockedOut)
    (hp : e.pnc.state ≠ .powerStop) : orderPnHalt ⟨held, tag, code, []⟩ e = .did e (e.estop .host) [] :=
  OrderResult.after_passed (by rw [firstFailure_formed_nil]; simp [firstFailure_cons, hl, hp])

/-- PN-HALT accepted, in any store: the paternoster is as the emergency stop leaves it, the demand is OFF, the chain
keeps its position and the settings stand, and the order is answered DONE. -/
theorem exec_pnHalt_accepted {s : State} {h : OrderHead} (r : s.Ready) (hl : s.pnc.state ≠ .lockedOut)
    (hp : s.pnc.state ≠ .powerStop) :
    ∃ t, exec (.pnHalt h []) s = .next t ∧ t.pnc = ((Ev.begin s.toEnv s.toStore).estop .host).pnc ∧
      t.out.demand = .off ∧ t.cht.position = s.cht.position ∧ s.SameSettings t ∧ s.Answers t h 0x1A .done .none [] := by
  have hexec : exec (.pnHalt h []) s = .next (settleOrder ⟨h.held, h.tag, 0x1A, []⟩
      (.acted .done none [] s.toEnv ((Ev.begin s.toEnv s.toStore).estop .host)) s.received) := by
    rw [exec_pnHalt r, orderPnHalt_accepted hl hp]
    rfl
  obtain ⟨hpnc, hdemand⟩ := acted_estop (Ev.estop_state (c := .host) (e := Ev.begin s.toEnv s.toStore) hl hp)
  refine ⟨_, hexec, hpnc, hdemand, ?_, acted_sameSettings ?_ ?_ ?_ ?_ ?_ ?_ ?_, acted_answers ..⟩
  all_goals simp

/-- Settles O29: entry to ESTOP and the joining of HOST are what `Ev.estop` does to the paternoster, which stays so to the
end of the event; the refusals are read off the order's table of checks. -/
theorem haltStopsTheChain : Obligations.HaltStopsTheChain := by
  unfold Obligations.HaltStopsTheChain
  intro h s r
  refine ⟨?_, ?_, ?_, ?_⟩
  · intro he hl hp
    obtain ⟨t, hexec, hpnc, hrest⟩ := exec_pnHalt_accepted (h := h) r hl hp
    rw [Ev.estop_enters he hl hp] at hpnc
    obtain ⟨hstate, hcauses, htarget⟩ := Ev.enterEstop_pnc .host (Ev.begin s.toEnv s.toStore)
    rw [← hpnc] at hstate hcauses htarget
    exact ⟨t, hexec, hstate, hcauses, htarget, hrest⟩
  · intro he
    obtain ⟨t, hexec, hpnc, hrest⟩ := exec_pnHalt_accepted (h := h) r (by simp [he]) (by simp [he])
    exact ⟨t, hexec, hpnc.trans (Ev.estop_joins he), hrest⟩
  · intro hm
    rw [exec_pnHalt r, orderPnHalt_refused hm, settle_refused]
  · intro body hb
    rw [exec_pnHalt r, orderPnHalt, OrderResult.after_failed (firstFailure_formed_nonempty hb _ _ _ _),
      settle_refused]

end Sys2Proof.Machine
end

