-- ==== Sys2Proof/Proofs/PhraseStore.lean ====
section
/-! PROOFS. The Phrase Store (07): PHRASE-DECLARE (R130, R131) and PHRASE-LOAD (R132, R133). First what the two orders
share, then for each order its checks, what it does to the directory and the block storage, and the settled statement. -/
namespace Sys2Proof.Machine

/-! ## An order with a body of fixed length -/

/-- A body of the length asked for passes the form check. -/
theorem firstFailure_formed_length {o : RxOrder} {n : Nat} (hl : o.body.length = n) (rest : List (Bool × Reason)) :
    firstFailure (formed o n :: rest) = firstFailure rest := by
  rw [formed, firstFailure_cons, if_pos (by simp [hl])]

/-- A body of any other length fails it. -/
theorem firstFailure_formed_otherLength {o : RxOrder} {n : Nat} (hl : o.body.length ≠ n) (rest : List (Bool × Reason)) :
    firstFailure (formed o n :: rest) = some .form := by
  rw [formed, firstFailure_cons, if_neg (by simp [hl])]

/-- A slot is EMPTY exactly at length 0 (R129). -/
theorem Slot.state_eq_empty {x : Slot} : x.state = .empty ↔ x.length = 0 := by
  unfold Slot.state
  constructor
  · intro h
    by_contra hx
    rw [if_neg hx] at h
    repeat' split at h
    all_goals exact absurd h (by decide)
  · exact fun h => if_pos h

/-! ## The checks of PHRASE-DECLARE (R130) -/

/-- The first check of R130 that a declaration fails, its form and its slot apart. -/
def Phs.declareRefusal (p : Phs) (sounding : Option (Fin 64)) (k : Fin 64) (n : Nat) : Option Reason :=
  if 2048 < n then some .range
  else if 8192 < p.totalWith k n then some .full
  else if ∃ j, sounding = some j ∧ k ≤ j then some .busy
  else none

/-- The data of an accepted declaration's answer, from the directory before and after it (R131). -/
def Phs.declareAnswer (p q : Phs) (k : Fin 64) (n : Nat) : List Byte :=
  Enc.byte q.slots[k].state.code ++ Enc.word (q.start k.val) ++ Enc.word q.free ++ Enc.set64 (p.invalidated k n)

/-- The order's table of checks comes to that refusal. -/
theorem Phs.declareChecks_first (p : Phs) (sounding : Option (Fin 64)) (k : Fin 64) (n : Nat) :
    firstFailure [(decide (n ≤ 2048), .range), (decide (p.totalWith k n ≤ Config.storageBlocks), .full),
      (sounding.all fun j => decide (j.val < k.val), .busy)] = p.declareRefusal sounding k n := by
  unfold Phs.declareRefusal
  refine firstFailure_step ?_ fun _ => firstFailure_step ?_ fun _ => firstFailure_step ?_ fun _ => rfl
  · exact decide_eq_false_iff_not.trans Nat.not_le
  · exact decide_eq_false_iff_not.trans Nat.not_le
  · cases sounding <;> simp

section Declare
variable {held : Bool} {tag code : Byte} {body : List Byte} {e : Ev} {k : Fin 64} {x : Reason}

/-- A declaration of any other form is refused. -/
theorem orderPhraseDeclare_malformed (hl : body.length ≠ 5) :
    orderPhraseDeclare ⟨held, tag, code, body⟩ e = .refused .form [] :=
  OrderResult.after_failed (firstFailure_formed_otherLength hl [])

/-- A declaration of a slot above 63 is refused. -/
theorem orderPhraseDeclare_noSlot (hl : body.length = 5) (hk : Body.fin 64 body 0 = none) :
    orderPhraseDeclare ⟨held, tag, code, body⟩ e = .refused .range [] := by
  rw [orderPhraseDeclare, OrderResult.after_passed (firstFailure_formed_length hl []), hk]

/-- A declaration that names a slot is refused by the first check of R130 it fails. -/
theorem orderPhraseDeclare_refused (hl : body.length = 5) (hk : Body.fin 64 body 0 = some k)
    (hx : e.phs.declareRefusal e.anp.sounding k (Body.word body 1) = some x) :
    orderPhraseDeclare ⟨held, tag, code, body⟩ e = .refused x [] := by
  rw [orderPhraseDeclare, OrderResult.after_passed (firstFailure_formed_length hl []), hk]
  exact OrderResult.after_failed ((Phs.declareChecks_first ..).trans hx)

/-- A declaration that passes them is made, and answered from the directory it leaves. -/
theorem orderPhraseDeclare_accepted (hl : body.length = 5) (hk : Body.fin 64 body 0 = some k)
    (hx : e.phs.declareRefusal e.anp.sounding k (Body.word body 1) = none) :
    orderPhraseDeclare ⟨held, tag, code, body⟩ e =
      let q := e.phs.declare k (Body.word body 1) (BitVec.ofNat 16 (Body.word body 3))
      .keptEnv { e.toEnv with phs := q } e (e.phs.declareAnswer q k (Body.word body 1)) := by
  rw [orderPhraseDeclare, OrderResult.after_passed (firstFailure_formed_length hl []), hk]
  exact OrderResult.after_passed ((Phs.declareChecks_first ..).trans hx)

end Declare

section Declare
variable {s : State} {h : OrderHead} {body : List Byte} {k : Fin 64}

/-- PHRASE-DECLARE refused by one of the checks of R130. -/
theorem exec_phraseDeclare_refused {x : Reason} (r : s.Ready) (hl : body.length = 5)
    (hk : Body.fin 64 body 0 = some k)
    (hx : s.phs.declareRefusal s.anp.sounding k (Body.word body 1) = some x) :
    exec (.phraseDeclare h body) s = .next (s.answered h 0x50 .refused x []) := by
  rw [exec_phraseDeclare r, orderPhraseDeclare_refused (e := Ev.begin s.toEnv s.toStore) hl hk hx, settle_refused]

/-- PHRASE-DECLARE accepted changes the Phrase Store alone. -/
theorem exec_phraseDeclare_accepted (r : s.Ready) (hl : body.length = 5) (hk : Body.fin 64 body 0 = some k)
    (hx : s.phs.declareRefusal s.anp.sounding k (Body.word body 1) = none) :
    let q := s.phs.declare k (Body.word body 1) (BitVec.ofNat 16 (Body.word body 3))
    exec (.phraseDeclare h body) s = .next (s.holdingIn { s.toEnv with phs := q } s.toStore
      (s.lnk.answered h 0x50 .done .none (s.phs.declareAnswer q k (Body.word body 1)))) := by
  rw [exec_phraseDeclare r, orderPhraseDeclare_accepted (e := Ev.begin s.toEnv s.toStore) hl hk hx]
  rfl

end Declare

/-! ## What a declaration leaves of the slots (R131) -/

namespace Phs

/-- A declaration returns to DECLARED, on a change of length, the higher slots that are not EMPTY. -/
theorem getLsbD_invalidated {p : Phs} {k j : Fin 64} {n : Nat} :
    (p.invalidated k n).getLsbD j.val = true ↔ k < j ∧ n ≠ p.slots[k].length ∧ p.slots[j].length ≠ 0 := by
  unfold invalidated
  split
  next same => simp [same]
  next change =>
    simp only [getLsbD_setOf, Bool.and_eq_true, decide_eq_true_eq, Fin.lt_def, ne_eq, change, not_false_eq_true, true_and]

/-- The slot declared has its length and its check, and nothing loaded. -/
theorem declare_slot_self (p : Phs) (k : Fin 64) (n : Nat) (c : BitVec 16) :
    (p.declare k n c).slots[k] = ⟨n, if n = 0 then 0 else c, [], none⟩ := by
  rw [declare_slot, if_pos rfl]

/-- Every other slot is emptied where the declaration invalidates it, and is else as it was. -/
theorem declare_slot_other (p : Phs) {k j : Fin 64} (n : Nat) (c : BitVec 16) (hj : j ≠ k) :
    (p.declare k n c).slots[j] =
      if k < j ∧ n ≠ p.slots[k].length ∧ p.slots[j].length ≠ 0 then { p.slots[j] with loaded := [], computed := none }
      else p.slots[j] := by
  rw [declare_slot, if_neg hj.symm]
  exact if_congr getLsbD_invalidated rfl rfl

end Phs

/-- Settles O45: the refusals are read off `Phs.declareRefusal`, the directory after an accepted declaration off
`Phs.declare`. -/
theorem declaredPhrases : Obligations.DeclaredPhrases := by
  unfold Obligations.DeclaredPhrases
  refine ⟨fun h body s r => ⟨?_, ?_⟩, fun h body k s r hl hk => ⟨?_, ?_, ?_, ?_⟩⟩
  · intro hl
    rw [exec_phraseDeclare r, orderPhraseDeclare_malformed hl, settle_refused]
  · intro hl hk
    rw [exec_phraseDeclare r, orderPhraseDeclare_noSlot hl hk, settle_refused]
  · intro hn ht hs
    have accepted : s.phs.declareRefusal s.anp.sounding k (Body.word body 1) = none := by
      rw [Phs.declareRefusal, if_neg (Nat.not_lt.mpr hn), if_neg (Nat.not_lt.mpr ht), if_neg]
      rintro ⟨j, hj, hkj⟩
      exact absurd (hs j hj) (not_lt.mpr hkj)
    exact ⟨_, exec_phraseDeclare_accepted r hl hk accepted, Phs.declare_storage .., Phs.declare_slot_self ..,
      fun j hj => Phs.declare_slot_other _ _ _ hj⟩
  · exact fun hn => exec_phraseDeclare_refused r hl hk (if_pos hn)
  · intro hn ht
    refine exec_phraseDeclare_refused r hl hk ?_
    rw [Phs.declareRefusal, if_neg (Nat.not_lt.mpr hn), if_pos ht]
  · intro j hn ht hj hkj
    refine exec_phraseDeclare_refused r hl hk ?_
    rw [Phs.declareRefusal, if_neg (Nat.not_lt.mpr hn), if_neg (Nat.not_lt.mpr ht), if_pos ⟨j, hj, hkj⟩]

/-! ## The checks of PHRASE-LOAD (R132) -/

/-- The first check of R132 that a load fails, its form and its slot apart. -/
def Phs.loadRefusal (p : Phs) (sounding : Option (Fin 64)) (k : Fin 64) (i : Nat) : Option Reason :=
  if p.slots[k].length = 0 then some .state
  else if p.slots[k].length ≤ i then some .range
  else if sounding = some k then some .busy
  else none

/-- The data of an accepted load's answer, from the directory after it (R132). -/
def Phs.loadAnswer (q : Phs) (k : Fin 64) : List Byte :=
  Enc.byte q.slots[k].state.code ++ Enc.word q.slots[k].loaded.length

/-- The order's table of checks comes to that refusal. -/
theorem Phs.loadChecks_first (p : Phs) (sounding : Option (Fin 64)) (k : Fin 64) (i : Nat) :
    firstFailure [(p.slots[k].state != .empty, .state), (decide (i < p.slots[k].length), .range),
      (sounding != some k, .busy)] = p.loadRefusal sounding k i := by
  unfold Phs.loadRefusal
  refine firstFailure_step ?_ fun _ => firstFailure_step ?_ fun _ => firstFailure_step ?_ fun _ => rfl
  · exact bne_eq_false_iff_eq.trans Slot.state_eq_empty
  · exact decide_eq_false_iff_not.trans Nat.not_lt
  · exact bne_eq_false_iff_eq

section Load
variable {held : Bool} {tag code : Byte} {body : List Byte} {e : Ev} {k : Fin 64} {x : Reason}

/-- A load of any other form is refused. -/
theorem orderPhraseLoad_malformed (hl : body.length ≠ 131) :
    orderPhraseLoad ⟨held, tag, code, body⟩ e = .refused .form [] :=
  OrderResult.after_failed (firstFailure_formed_otherLength hl [])

/-- A load into a slot above 63 is refused. -/
theorem orderPhraseLoad_noSlot (hl : body.length = 131) (hk : Body.fin 64 body 0 = none) :
    orderPhraseLoad ⟨held, tag, code, body⟩ e = .refused .range [] := by
  rw [orderPhraseLoad, OrderResult.after_passed (firstFailure_formed_length hl []), hk]

/-- A load that names a slot is refused by the first check of R132 it fails. -/
theorem orderPhraseLoad_refused (hl : body.length = 131) (hk : Body.fin 64 body 0 = some k)
    (hx : e.phs.loadRefusal e.anp.sounding k (Body.word body 1) = some x) :
    orderPhraseLoad ⟨held, tag, code, body⟩ e = .refused x [] := by
  rw [orderPhraseLoad, OrderResult.after_passed (firstFailure_formed_length hl []), hk]
  exact OrderResult.after_failed ((Phs.loadChecks_first ..).trans hx)

/-- A load that passes them is made, and answered from the directory it leaves. -/
theorem orderPhraseLoad_accepted (hl : body.length = 131) (hk : Body.fin 64 body 0 = some k)
    (hx : e.phs.loadRefusal e.anp.sounding k (Body.word body 1) = none) :
    orderPhraseLoad ⟨held, tag, code, body⟩ e =
      let q := e.phs.load k (Body.word body 1) (body.drop 3)
      .quiet { e.toEnv with phs := q.1 } e.toStore q.2 (q.1.loadAnswer k) := by
  rw [orderPhraseLoad, OrderResult.after_passed (firstFailure_formed_length hl []), hk]
  exact OrderResult.after_passed ((Phs.loadChecks_first ..).trans hx)

end Load

section Load
variable {s : State} {h : OrderHead} {body : List Byte} {k : Fin 64}

/-- PHRASE-LOAD refused by one of the checks of R132. -/
theorem exec_phraseLoad_refused {x : Reason} (r : s.Ready) (hl : body.length = 131) (hk : Body.fin 64 body 0 = some k)
    (hx : s.phs.loadRefusal s.anp.sounding k (Body.word body 1) = some x) :
    exec (.phraseLoad h body) s = .next (s.answered h 0x51 .refused x []) := by
  rw [exec_phraseLoad r, orderPhraseLoad_refused (e := Ev.begin s.toEnv s.toStore) hl hk hx, settle_refused]

/-- PHRASE-LOAD accepted changes the Phrase Store alone, and offers the notice of its completion check. -/
theorem exec_phraseLoad_accepted (r : s.Ready) (hl : body.length = 131) (hk : Body.fin 64 body 0 = some k)
    (hx : s.phs.loadRefusal s.anp.sounding k (Body.word body 1) = none) :
    let q := s.phs.load k (Body.word body 1) (body.drop 3)
    exec (.phraseLoad h body) s = .next (s.holdingIn { s.toEnv with phs := q.1 } s.toStore
      ((s.lnk.answered h 0x51 .done .none (q.1.loadAnswer k)).takeAll (q.2.map .notice))) := by
  rw [exec_phraseLoad r, orderPhraseLoad_accepted (e := Ev.begin s.toEnv s.toStore) hl hk hx, settle_quiet]
  rfl

end Load

/-! ## What a load leaves of the storage and the slots (R128, R132, R133) -/

/-- A run of bytes written reads back whole. -/
theorem Memory.readAll_writeAll {m : List Host.Cell} (hm : Memory.wf m = true) (x : Nat) (vs : List Byte) :
    Memory.readAll (Memory.writeAll m x vs) x vs.length = vs := by
  refine List.ext_getElem (by simp [Memory.readAll]) fun i _ hi => ?_
  simpa [Memory.readAll] using Memory.read_writeAll_inside x i vs hm hi

namespace Phs

/-- Where the slots lie follows from their lengths alone (R128). -/
theorem start_congr {p q : Phs} (hlen : ∀ j : Fin 64, p.slots[j].length = q.slots[j].length) : p.start = q.start := by
  have hmap : p.slots.toList.map Slot.length = q.slots.toList.map Slot.length := by
    refine List.ext_getElem (by simp) fun j hj _ => ?_
    simpa using hlen ⟨j, by simpa using hj⟩
  funext k
  rw [start, start, List.map_take, List.map_take, hmap]

section Load
variable (p : Phs) (k : Fin 64) (i : Nat) (bytes : List Byte)

/-- A load into one slot leaves every other slot's record. -/
theorem load_slot_other {j : Fin 64} (hj : j ≠ k) : (p.load k i bytes).1.slots[j] = p.slots[j] := by
  rw [load_slot, if_neg hj.symm]

/-- A load changes no length. -/
theorem load_length (j : Fin 64) : (p.load k i bytes).1.slots[j].length = p.slots[j].length := by
  rw [load_slot]
  split
  next same => rw [same]
  next => rfl

/-- A load moves no phrase. -/
theorem load_start : (p.load k i bytes).1.start = p.start := start_congr (p.load_length k i bytes)

/-- A load keeps its slot's check value. -/
theorem load_check : (p.load k i bytes).1.slots[k].check = p.slots[k].check := by
  rw [load_slot, if_pos rfl]

/-- The loaded set of its slot has the index more. -/
theorem mem_load_loaded (x : Nat) : x ∈ (p.load k i bytes).1.slots[k].loaded ↔ x ∈ p.slots[k].loaded ∨ x = i := by
  rw [load_slot, if_pos rfl, mem_insertAscending, or_comm]

/-- The slot of a block just stored. -/
theorem stored_slot : (p.stored k i bytes).slots[k] = { p.slots[k] with loaded := insertAscending i p.slots[k].loaded } :=
  put_self _ _ _

/-- The completion check leaves a slot as complete as the storing of the block made it. -/
theorem load_complete : (p.load k i bytes).1.complete k = (p.stored k i bytes).complete k := by
  unfold complete
  rw [load_slot, if_pos rfl, stored_slot]

/-- The completion check is over the phrase as the whole load leaves it. -/
theorem load_phrase : (p.load k i bytes).1.phrase k = (p.stored k i bytes).phrase k := by
  have hlen (j : Fin 64) : (p.load k i bytes).1.slots[j].length = (p.stored k i bytes).slots[j].length := by
    rw [load_length, stored, put_get]
    split
    next same => rw [same]
    next => rfl
  rw [phrase, phrase, start_congr hlen, hlen, load_storage]
  rfl

/-- The computed check of its slot: the CRC of the phrase where the slot is complete, else as it was (R133). -/
theorem load_computed : (p.load k i bytes).1.slots[k].computed =
    if (p.load k i bytes).1.complete k then some (crc16 ((p.load k i bytes).1.phrase k)) else p.slots[k].computed := by
  rw [load_complete, load_phrase, load_slot, if_pos rfl]

/-- The notice of a completion check, and none without one (R133). -/
theorem load_notices : (p.load k i bytes).2 =
    let x := (p.load k i bytes).1.slots[k]
    if (p.load k i bytes).1.complete k then [.phrase k x.state x.length x.check (x.computed.getD 0)] else [] := by
  dsimp only
  rw [load_complete]
  unfold load
  dsimp only
  split <;> rfl

variable {p bytes}

/-- The block loaded reads back. -/
theorem load_block (hm : Memory.wf p.storage = true) (hb : bytes.length = Config.blockBytes) :
    (p.load k i bytes).1.block k i = bytes := by
  rw [block, load_start, load_storage, ← hb]
  exact Memory.readAll_writeAll hm _ bytes

/-- A load writes no byte outside its block. -/
theorem load_outside (hm : Memory.wf p.storage = true) (hb : bytes.length = Config.blockBytes) {a : Nat}
    (ha : a < (p.start k.val + i) * Config.blockBytes ∨ (p.start k.val + i) * Config.blockBytes + Config.blockBytes ≤ a) :
    Memory.read (p.load k i bytes).1.storage a = Memory.read p.storage a := by
  rw [load_storage]
  exact Memory.read_writeAll_outside _ a bytes hm (by rwa [hb])

end Load

end Phs

/-- Settles O46: the refusals are read off `Phs.loadRefusal`; of an accepted load, the block and the other bytes are a run of
writes read back, and the completion check is over the phrase they make. -/
theorem loadedBlocksReadBack : Obligations.LoadedBlocksReadBack := by
  unfold Obligations.LoadedBlocksReadBack
  refine ⟨fun h body s r => ⟨?_, ?_⟩, fun h body k s r hl hk => ⟨?_, ?_, ?_⟩, fun h body k s r fit hl hk hi hs => ?_⟩
  · intro hl
    rw [exec_phraseLoad r, orderPhraseLoad_malformed hl, settle_refused]
  · intro hl hk
    rw [exec_phraseLoad r, orderPhraseLoad_noSlot hl hk, settle_refused]
  · exact fun hempty => exec_phraseLoad_refused r hl hk (if_pos hempty)
  · intro hpos hi
    refine exec_phraseLoad_refused r hl hk ?_
    rw [Phs.loadRefusal, if_neg (by omega), if_pos hi]
  · intro hi hs
    refine exec_phraseLoad_refused r hl hk ?_
    rw [Phs.loadRefusal, if_neg (by omega), if_neg (by omega), if_pos hs]
  · have accepted : s.phs.loadRefusal s.anp.sounding k (Body.word body 1) = none := by
      rw [Phs.loadRefusal, if_neg (by omega), if_neg (by omega), if_neg hs]
    have hb : (body.drop 3).length = Config.blockBytes := by rw [List.length_drop, hl]; rfl
    obtain ⟨hm, -, -⟩ := fit
    refine ⟨_, ?_, Phs.load_block k _ hm hb, fun a ha => Phs.load_outside k _ hm hb ha,
      fun j hj => Phs.load_slot_other _ _ _ _ hj, Phs.load_length .., Phs.load_check .., Phs.mem_load_loaded _ _ _ _, ?_⟩
    · rw [exec_phraseLoad_accepted r hl hk accepted, Phs.load_notices]
      simp only [Phs.complete, Phs.loadAnswer, decide_eq_true_eq]
      split <;> rfl
    · simpa only [Phs.complete, decide_eq_true_eq] using Phs.load_computed s.phs k (Body.word body 1) (body.drop 3)

end Sys2Proof.Machine
end

