-- ==== Sys2Proof/Proofs/OrderLink.lean ====
section
/-! PROOFS. The order link: STATUS (R180), the one order the Link Unit answers itself. -/
namespace Sys2Proof.Machine

/-! ## What STATUS comes to (R180) -/

/-- STATUS passes the Link Unit's checks: its code is an order's, and no long operation's (R177, R178). -/
theorem takeOrder_status (held : Bool) (tag : Byte) (body : List Byte) (s : State) :
    takeOrder ⟨held, tag, 0x01, body⟩ s = takeStatus ⟨held, tag, 0x01, body⟩ s := by
  have known : isOrderCode 0x01 = true := by decide
  have short : isLongOperation 0x01 = false := by decide
  rw [takeOrder, RxOrder.wantsHeld, known, short, Bool.and_false, Bool.false_and]
  rfl

/-- STATUS taken at once is answered by the Link Unit, on the state as its frame's arrival leaves it. -/
theorem exec_status {h : OrderHead} {body : List Byte} {s : State} (r : s.Ready) :
    exec (.status h body) s = .next (takeStatus ⟨h.held, h.tag, 0x01, body⟩ s.received) := by
  have arrives : exec (.status h body) s = .next (arrive ⟨h.held, h.tag, 0x01, body⟩ s) := rfl
  rw [arrives, arrive_ready _ r, takeOrder_status, State.received]

/-- The report is of the store and of the link's flag and counts, none of which the arrival of the frame changes. -/
theorem status_received (s : State) : Enc.status s.received = Enc.status s := rfl

/-- A well-formed STATUS is answered with the report as it stands before the answer, and the flag is cleared. -/
theorem takeStatus_wellFormed (h : OrderHead) (s : State) : takeStatus ⟨h.held, h.tag, 0x01, []⟩ s.received =
    { s with lnk := { s.lnk.answered h 0x01 .done .none (Enc.status s) with lost := false } } := by
  rw [takeStatus, if_pos List.isEmpty_nil, status_received]
  rfl

/-- A STATUS with a body is refused, and the flag stays. -/
theorem takeStatus_malformed {body : List Byte} (hb : body ≠ []) (h : OrderHead) (s : State) :
    takeStatus ⟨h.held, h.tag, 0x01, body⟩ s.received = s.answered h 0x01 .refused .form [] := by
  rw [takeStatus, if_neg (by simpa using hb)]
  rfl

/-- Settles O7: STATUS is taken by the Link Unit itself, and the two forms of its body are the two cases of
`takeStatus`. -/
theorem statusReportsAndClears : Obligations.StatusReportsAndClears := by
  unfold Obligations.StatusReportsAndClears
  refine fun h body s r => ⟨?_, ?_⟩
  · rintro rfl
    rw [exec_status r, takeStatus_wellFormed, Enc.status]
  · intro hb
    rw [exec_status r, takeStatus_malformed hb]

end Sys2Proof.Machine
end
